-- ==== Sys2Proof/Word.lean ====
section
/-! DEFINITION. The words of EPDSEQ: a bit (a line level), a byte (a bus byte) and a 16-bit request word
(spec/00_scope.md R19, spec/30_encoding.md R57). -/

namespace Sys2Proof

/-- A line or busy level, 0 or 1 (R19, R12). -/
abbrev Bit := BitVec 1

/-- A byte of the bus, of the framebuffer or of the configuration (R19). -/
abbrev Byte := BitVec 8

/-- A request word (R57). -/
abbrev Word := BitVec 16

end Sys2Proof
end

