-- ==== Sys2Proof/Syntax.lean ====
section
/-! DEFINITION. The instructions of EPDSEQ: one constructor for every row of spec/opcode_table.json, and the
small types their operands range over. -/

namespace Sys2Proof

/-- The panel command names of spec/42_panel_commands.md R101 to R120 (the operand of CMD and SEND, R71). -/
inductive PanelCmd where
  | swReset
  | driverOutputCtrl
  | dataEntryMode
  | setRamXWindow
  | setRamYWindow
  | setRamXCounter
  | setRamYCounter
  | borderWaveform
  | tempSensorCtrl
  | boosterSoftStart
  | gateVoltage
  | sourceVoltage
  | writeVcom
  | writeLut
  | displayUpdateCtrl2
  | masterActivate
  | writeBwData
  | writeRedData
  | tempControlWrite
  | deepSleep
  deriving DecidableEq, Repr

/-- The two output lines EPDSEQ drives (R27, R28, R79). -/
inductive Line where
  | rst
  | dc
  deriving DecidableEq, Repr

/-- Which settle delay T_RST1, T_RST2 or T_RST3 a DELAY waits (R11, R80). -/
inductive Settle where
  | t1
  | t2
  | t3
  deriving DecidableEq, Repr

/-- The lifecycle state (R25). -/
inductive DeviceState where
  | uninitialized
  | idle
  | busy
  | sleeping
  deriving DecidableEq, Repr

/-- The refresh profile (R22, R59). -/
inductive Profile where
  | full
  | fast
  | part
  deriving DecidableEq, Repr

/-- One constructor per row of the opcode table: ten request rows, twenty panel command rows, ten micro-operation rows. -/
inductive Instr where
  -- requests (R58 to R62)
  | init
  | writeAndUpdateFull
  | writeAndUpdateFast
  | writeAndUpdatePartial
  | updateFull
  | updateFast
  | updatePartial
  | clear (v : Byte)
  | sleep
  /-- Any word that is Illegal under R62, kept because `Accept(w)` shows it. -/
  | illegal (w : Word)
  -- panel commands (R101 to R120)
  | swReset
  | driverOutputCtrl
  | dataEntryMode
  | setRamXWindow
  | setRamYWindow
  | setRamXCounter
  | setRamYCounter
  | borderWaveform
  | tempSensorCtrl
  | boosterSoftStart
  | gateVoltage
  | sourceVoltage
  | writeVcom
  | writeLut
  /-- The payload is one profile byte `pb` (R115). -/
  | displayUpdateCtrl2 (pb : Byte)
  | masterActivate
  | writeBwData
  | writeRedData
  | tempControlWrite
  | deepSleep
  -- micro-operations (R75 to R84)
  | cmd (c : PanelCmd)
  | data (bs : List Byte)
  | fill (v : Byte) (n : Nat)
  | stream (n : Nat)
  | line (l : Line) (v : Bit)
  | delay (k : Settle)
  | hwReset
  | wait
  | setdev (d : DeviceState)
  | send (c : PanelCmd) (bs : List Byte)
  deriving DecidableEq, Repr

end Sys2Proof
end

