-- ==== Sys2Proof/Config.lean ====
section
/-! DEFINITION. The configuration record of spec/00_scope.md R18 and the free values. `Config` is one record; no step changes it.
The `opaque` constants are the OPEN parameters of the reference configuration (spec/42_panel_commands.md R122) and the answers
of the environment that obey no law (R20): they have no value anything could be proved of. -/

namespace Sys2Proof

/-- The answer of the panel side to a line or byte write (R20, R27). -/
inductive Ack where
  | ok
  | fail
  deriving DecidableEq, Repr, Inhabited

/-- The opcode parameters `OP_<name>`, one byte each (R13, R101 to R120). -/
structure Opcodes where
  swReset : Byte
  driverOutputCtrl : Byte
  dataEntryMode : Byte
  setRamXWindow : Byte
  setRamYWindow : Byte
  setRamXCounter : Byte
  setRamYCounter : Byte
  borderWaveform : Byte
  tempSensorCtrl : Byte
  boosterSoftStart : Byte
  gateVoltage : Byte
  sourceVoltage : Byte
  writeVcom : Byte
  writeLut : Byte
  displayUpdateCtrl2 : Byte
  masterActivate : Byte
  writeBwData : Byte
  writeRedData : Byte
  tempControlWrite : Byte
  deepSleep : Byte
  deriving DecidableEq, Repr

/-- The payload parameters `P_<name>` (R13, D6). -/
structure Payloads where
  driverOutputCtrl : List Byte
  dataEntryMode : List Byte
  borderWaveform : List Byte
  tempSensorCtrl : List Byte
  boosterSoftStart : List Byte
  gateVoltage : List Byte
  sourceVoltage : List Byte
  writeVcom : List Byte
  deepSleep : List Byte
  deriving DecidableEq, Repr

/-- The configuration record (R18). `packX` and `packY` are the tables of the two finite functions of R17: entry `x` of `packX`
is the byte sequence `packX(x)`, for `x` below WB, and entry `y` of `packY` is `packY(y)`, for `y` below H. -/
structure Config where
  width : Nat
  height : Nat
  waitBound : Nat
  tRst1 : Nat
  tRst2 : Nat
  tRst3 : Nat
  dcCmdLevel : Bit
  busyActiveLevel : Bit
  op : Opcodes
  payload : Payloads
  lutLen : Nat
  lutFull : List Byte
  lutFast : List Byte
  pbFull : Byte
  pbPartial : Byte
  pbFast1 : Byte
  pbFast2 : Byte
  pbFast3 : Byte
  tempOverride : List Byte
  clearRed : Bool
  redFillValue : Byte
  packX : List (List Byte)
  packY : List (List Byte)
  deriving DecidableEq, Repr

/-- The byte width `WB = W/8` (R9). -/
def Config.wb (c : Config) : Nat := c.width / 8

/-- The framebuffer length `FB_LEN = WB × H` (R9). -/
def Config.fbLen (c : Config) : Nat := c.wb * c.height

/-- The constraints the spec puts on the record: `W mod 8 = 0`, `W ≥ 8`, `H ≥ 1` (R9), `WAIT_BOUND ≥ 1` (R10), payloads of at
least one byte (D6), `P_DEEP_SLEEP = [0x01]` (R13), LUTs of LUT_LEN bytes (R14), a two-byte TEMP_OVERRIDE (R15), and packX and
packY defined on exactly their domains (R17). -/
def Config.wf (c : Config) : Bool :=
  c.width % 8 == 0 && decide (8 ≤ c.width) && decide (1 ≤ c.height) && decide (1 ≤ c.waitBound)
  && decide (1 ≤ c.payload.driverOutputCtrl.length) && decide (1 ≤ c.payload.dataEntryMode.length)
  && decide (1 ≤ c.payload.borderWaveform.length) && decide (1 ≤ c.payload.tempSensorCtrl.length)
  && decide (1 ≤ c.payload.boosterSoftStart.length) && decide (1 ≤ c.payload.gateVoltage.length)
  && decide (1 ≤ c.payload.sourceVoltage.length) && decide (1 ≤ c.payload.writeVcom.length)
  && c.payload.deepSleep == [0x01#8]
  && c.lutFull.length == c.lutLen && c.lutFast.length == c.lutLen && c.tempOverride.length == 2
  && c.packX.length == c.wb && c.packY.length == c.height

/-! ### Free values -/

/-- The panel's answer to the `n`-th free draw of `Ack()` (R20, U12). -/
opaque Config.freeAck : Nat → Ack

/-- The busy level of the `n`-th free draw of `LevelBusy()` (R20, U13). -/
opaque Config.freeLevel : Nat → Bit

/-- The level of a pin that the spec leaves at any value (R28, U7, U8); the number is the model's draw counter. -/
opaque Config.freePin : Line → Nat → Bit

/-! ### OPEN parameters of the reference configuration (R122) -/

/-- One less than REF's WAIT_BOUND, so that `WAIT_BOUND ≥ 1` (R10, D8). -/
opaque Config.openWaitBound : Nat

/-- The settle delays T_RSTk (R11, D9). -/
opaque Config.openDelay : Settle → Nat

/-- P_WRITE_VCOM, one byte assumed (R122). -/
opaque Config.openVcom : Byte

/-- LUT_FULL[i] (R14). -/
opaque Config.openLutFull : Nat → Byte

/-- LUT_FAST[i] (R14). -/
opaque Config.openLutFast : Nat → Byte

/-- PB_FULL (R15, D7). -/
opaque Config.openPbFull : Byte

/-- PB_PARTIAL (R15, D7). -/
opaque Config.openPbPartial : Byte

/-- PB_FAST1 (R15, D7). -/
opaque Config.openPbFast1 : Byte

/-- PB_FAST2 (R15, D7). -/
opaque Config.openPbFast2 : Byte

/-- PB_FAST3 (R15, D7). -/
opaque Config.openPbFast3 : Byte

/-- TEMP_OVERRIDE[i], i = 0, 1 (R15, D43). -/
opaque Config.openTemp : Nat → Byte

/-- RED_FILL_VALUE (R16, D14). -/
opaque Config.openRedFill : Byte

end Sys2Proof
end

