-- ==== Sys2Proof/WellFormed.lean ====
section
/-! DEFINITION. Which instructions are well formed, and which kind of table row each is: the checks of R59 to R62 on a request,
and the operand ranges the micro-operation rules give (R76 to R78, R83). -/

namespace Sys2Proof

/-- The ten request rows. -/
def Instr.isRequest : Instr → Bool
  | .init | .writeAndUpdateFull | .writeAndUpdateFast | .writeAndUpdatePartial => true
  | .updateFull | .updateFast | .updatePartial | .clear _ | .sleep | .illegal _ => true
  | .swReset | .driverOutputCtrl | .dataEntryMode | .setRamXWindow | .setRamYWindow => false
  | .setRamXCounter | .setRamYCounter | .borderWaveform | .tempSensorCtrl | .boosterSoftStart => false
  | .gateVoltage | .sourceVoltage | .writeVcom | .writeLut | .displayUpdateCtrl2 _ => false
  | .masterActivate | .writeBwData | .writeRedData | .tempControlWrite | .deepSleep => false
  | .cmd _ | .data _ | .fill _ _ | .stream _ | .line _ _ => false
  | .delay _ | .hwReset | .wait | .setdev _ | .send _ _ => false

/-- The ten micro-operation rows. -/
def Instr.isMicro : Instr → Bool
  | .init | .writeAndUpdateFull | .writeAndUpdateFast | .writeAndUpdatePartial => false
  | .updateFull | .updateFast | .updatePartial | .clear _ | .sleep | .illegal _ => false
  | .swReset | .driverOutputCtrl | .dataEntryMode | .setRamXWindow | .setRamYWindow => false
  | .setRamXCounter | .setRamYCounter | .borderWaveform | .tempSensorCtrl | .boosterSoftStart => false
  | .gateVoltage | .sourceVoltage | .writeVcom | .writeLut | .displayUpdateCtrl2 _ => false
  | .masterActivate | .writeBwData | .writeRedData | .tempControlWrite | .deepSleep => false
  | .cmd _ | .data _ | .fill _ _ | .stream _ | .line _ _ => true
  | .delay _ | .hwReset | .wait | .setdev _ | .send _ _ => true

/-- The twenty panel command rows. -/
def Instr.isCommand (i : Instr) : Bool := !i.isRequest && !i.isMicro

/-- OPC, the request opcode `w[15:12]` (R57). -/
def opcField (w : Word) : BitVec 4 := w.extractLsb' 12 4

/-- RSV, reserved, `w[11:10]` (R57, R61). -/
def rsvField (w : Word) : BitVec 2 := w.extractLsb' 10 2

/-- PROF, the refresh profile `w[9:8]` (R57, R59). -/
def profField (w : Word) : BitVec 2 := w.extractLsb' 8 2

/-- VALUE, the fill byte `w[7:0]` (R57, R60). -/
def valueField (w : Word) : Byte := w.extractLsb' 0 8

/-- The five conditions of R62, any of which makes a word Illegal: a reserved OPC (R58), RSV ≠ 0, PROF = 3, PROF ≠ 0 for INIT,
CLEAR or SLEEP, VALUE ≠ 0 for any request other than CLEAR. -/
def isIllegalWord (w : Word) : Bool :=
  (opcField w == 0#4 || decide (6#4 ≤ opcField w))
  || rsvField w != 0#2
  || profField w == 3#2
  || (profField w != 0#2 && (opcField w == 1#4 || opcField w == 4#4 || opcField w == 5#4))
  || (valueField w != 0#8 && opcField w != 4#4)

/-- Well-formedness of an instruction. ILLEGAL carries an Illegal word (R62), the byte sequence of DATA is not empty (R76), FILL
has a count of at least one (R77), STREAM has exactly FB_LEN (R78), SETDEV never names Busy (R83). -/
def Instr.wellFormed (c : Config) : Instr → Bool
  | .illegal w => isIllegalWord w
  | .data bs => !bs.isEmpty
  | .fill _ n => decide (1 ≤ n)
  | .stream n => n == c.fbLen
  | .setdev d => d != .busy
  | .init | .writeAndUpdateFull | .writeAndUpdateFast | .writeAndUpdatePartial => true
  | .updateFull | .updateFast | .updatePartial | .clear _ | .sleep => true
  | .swReset | .driverOutputCtrl | .dataEntryMode | .setRamXWindow | .setRamYWindow => true
  | .setRamXCounter | .setRamYCounter | .borderWaveform | .tempSensorCtrl | .boosterSoftStart => true
  | .gateVoltage | .sourceVoltage | .writeVcom | .writeLut | .displayUpdateCtrl2 _ => true
  | .masterActivate | .writeBwData | .writeRedData | .tempControlWrite | .deepSleep => true
  | .cmd _ | .line _ _ | .delay _ | .hwReset | .wait | .send _ _ => true

end Sys2Proof
end

