-- ==== Sys2Proof/Decode.lean ====
section
/-! DEFINITION. The decoder and the encoder. A request is one 16-bit word (spec/30_encoding.md R57 to R62) and its decoder is
total. A panel command is its opcode byte (R72, spec/42_panel_commands.md R101 to R120), followed for DISPLAY_UPDATE_CTRL2 by
its one payload byte, the only payload byte the configuration does not fix (R115). Micro-operations have no binary form (R71). -/

namespace Sys2Proof

/-! ### Requests -/

/-- The profile rows of OPC 0x2 and 0x3 share this selection by PROF (R59): 0 Full, 1 Fast, 2 Partial, 3 reserved. -/
def decodeProfile (w : Word) (full fast part : Instr) : Instr :=
  if w.extractLsb' 0 8 ≠ 0#8 then .illegal w
  else if w.extractLsb' 8 2 = 0#2 then full
  else if w.extractLsb' 8 2 = 1#2 then fast
  else if w.extractLsb' 8 2 = 2#2 then part
  else .illegal w

/-- A request with no operand: PROF and VALUE must be 0 (R59, R60). -/
def decodePlain (w : Word) (i : Instr) : Instr :=
  if w.extractLsb' 0 10 = 0#10 then i else .illegal w

/-- The request decoder (R57 to R62), total on the 65536 words. -/
def decodeRequest (w : Word) : Instr :=
  if w.extractLsb' 10 2 ≠ 0#2 then .illegal w
  else if w.extractLsb' 12 4 = 1#4 then decodePlain w .init
  else if w.extractLsb' 12 4 = 2#4 then
    decodeProfile w .writeAndUpdateFull .writeAndUpdateFast .writeAndUpdatePartial
  else if w.extractLsb' 12 4 = 3#4 then decodeProfile w .updateFull .updateFast .updatePartial
  else if w.extractLsb' 12 4 = 4#4 then
    (if w.extractLsb' 8 2 = 0#2 then .clear (w.extractLsb' 0 8) else .illegal w)
  else if w.extractLsb' 12 4 = 5#4 then decodePlain w .sleep
  else .illegal w

/-- The word of a request (R57, R70); 0 for what is no request. -/
def encodeRequest : Instr → Word
  | .init => 0x1000#16
  | .writeAndUpdateFull => 0x2000#16
  | .writeAndUpdateFast => 0x2100#16
  | .writeAndUpdatePartial => 0x2200#16
  | .updateFull => 0x3000#16
  | .updateFast => 0x3100#16
  | .updatePartial => 0x3200#16
  | .clear v => 0x40#8 ++ v
  | .sleep => 0x5000#16
  | .illegal w => w
  | .swReset | .driverOutputCtrl | .dataEntryMode | .setRamXWindow | .setRamYWindow => 0#16
  | .setRamXCounter | .setRamYCounter | .borderWaveform | .tempSensorCtrl | .boosterSoftStart => 0#16
  | .gateVoltage | .sourceVoltage | .writeVcom | .writeLut | .displayUpdateCtrl2 _ => 0#16
  | .masterActivate | .writeBwData | .writeRedData | .tempControlWrite | .deepSleep => 0#16
  | .cmd _ | .data _ | .fill _ _ | .stream _ | .line _ _ => 0#16
  | .delay _ | .hwReset | .wait | .setdev _ | .send _ _ => 0#16

/-! ### Panel commands -/

/-- The opcode byte `OP_<name>` of a panel command (R13). -/
def opcodeOf (o : Opcodes) : PanelCmd → Byte
  | .swReset => o.swReset
  | .driverOutputCtrl => o.driverOutputCtrl
  | .dataEntryMode => o.dataEntryMode
  | .setRamXWindow => o.setRamXWindow
  | .setRamYWindow => o.setRamYWindow
  | .setRamXCounter => o.setRamXCounter
  | .setRamYCounter => o.setRamYCounter
  | .borderWaveform => o.borderWaveform
  | .tempSensorCtrl => o.tempSensorCtrl
  | .boosterSoftStart => o.boosterSoftStart
  | .gateVoltage => o.gateVoltage
  | .sourceVoltage => o.sourceVoltage
  | .writeVcom => o.writeVcom
  | .writeLut => o.writeLut
  | .displayUpdateCtrl2 => o.displayUpdateCtrl2
  | .masterActivate => o.masterActivate
  | .writeBwData => o.writeBwData
  | .writeRedData => o.writeRedData
  | .tempControlWrite => o.tempControlWrite
  | .deepSleep => o.deepSleep

/-- The twenty command names in the order of R101 to R120. -/
def panelCmds : List PanelCmd :=
  [.swReset, .driverOutputCtrl, .dataEntryMode, .setRamXWindow, .setRamYWindow,
   .setRamXCounter, .setRamYCounter, .borderWaveform, .tempSensorCtrl, .boosterSoftStart,
   .gateVoltage, .sourceVoltage, .writeVcom, .writeLut, .displayUpdateCtrl2,
   .masterActivate, .writeBwData, .writeRedData, .tempControlWrite, .deepSleep]

/-- The name a command byte stands for under the opcode parameters `o` (R72), if any. Where two parameters are equal, a case R121
leaves to the reader, it is the first of their names in the order of R101 to R120: DESIGN CHOICE (log 25). -/
def commandOf (o : Opcodes) (b : Byte) : Option PanelCmd :=
  panelCmds.find? (fun c => opcodeOf o c == b)

/-- The twenty opcodes are distinct, which a reader that tells commands apart by byte needs (R121). -/
def opcodesDistinct (o : Opcodes) : Bool :=
  decide ((panelCmds.map (opcodeOf o)).Nodup)

/-- The table row of a command name; `pb` is the payload byte of DISPLAY_UPDATE_CTRL2 (R115). -/
def commandInstr (pb : Byte) : PanelCmd → Instr
  | .swReset => .swReset
  | .driverOutputCtrl => .driverOutputCtrl
  | .dataEntryMode => .dataEntryMode
  | .setRamXWindow => .setRamXWindow
  | .setRamYWindow => .setRamYWindow
  | .setRamXCounter => .setRamXCounter
  | .setRamYCounter => .setRamYCounter
  | .borderWaveform => .borderWaveform
  | .tempSensorCtrl => .tempSensorCtrl
  | .boosterSoftStart => .boosterSoftStart
  | .gateVoltage => .gateVoltage
  | .sourceVoltage => .sourceVoltage
  | .writeVcom => .writeVcom
  | .writeLut => .writeLut
  | .displayUpdateCtrl2 => .displayUpdateCtrl2 pb
  | .masterActivate => .masterActivate
  | .writeBwData => .writeBwData
  | .writeRedData => .writeRedData
  | .tempControlWrite => .tempControlWrite
  | .deepSleep => .deepSleep

/-- The command name of a panel command row. -/
def commandName : Instr → Option PanelCmd
  | .swReset => some .swReset
  | .driverOutputCtrl => some .driverOutputCtrl
  | .dataEntryMode => some .dataEntryMode
  | .setRamXWindow => some .setRamXWindow
  | .setRamYWindow => some .setRamYWindow
  | .setRamXCounter => some .setRamXCounter
  | .setRamYCounter => some .setRamYCounter
  | .borderWaveform => some .borderWaveform
  | .tempSensorCtrl => some .tempSensorCtrl
  | .boosterSoftStart => some .boosterSoftStart
  | .gateVoltage => some .gateVoltage
  | .sourceVoltage => some .sourceVoltage
  | .writeVcom => some .writeVcom
  | .writeLut => some .writeLut
  | .displayUpdateCtrl2 _ => some .displayUpdateCtrl2
  | .masterActivate => some .masterActivate
  | .writeBwData => some .writeBwData
  | .writeRedData => some .writeRedData
  | .tempControlWrite => some .tempControlWrite
  | .deepSleep => some .deepSleep
  | .init | .writeAndUpdateFull | .writeAndUpdateFast | .writeAndUpdatePartial => none
  | .updateFull | .updateFast | .updatePartial | .clear _ | .sleep | .illegal _ => none
  | .cmd _ | .data _ | .fill _ _ | .stream _ | .line _ _ => none
  | .delay _ | .hwReset | .wait | .setdev _ | .send _ _ => none

/-- Why a code is no instruction. -/
inductive DecodeError where
  /-- The code has no byte, or DISPLAY_UPDATE_CTRL2 lacks its payload byte. -/
  | truncated
  /-- The byte is no opcode of the vocabulary; EPDSEQ never sends it as a command (R72). -/
  | notACommand (b : Byte)
  deriving DecidableEq, Repr

/-- Decoding the bytes of a panel command under the opcode parameters `o`: the instruction and the bytes after it. -/
def decodeCommand (o : Opcodes) : List Byte → Except DecodeError (Instr × List Byte)
  | [] => .error .truncated
  | b :: rest =>
    match commandOf o b with
    | none => .error (.notACommand b)
    | some .displayUpdateCtrl2 =>
      match rest with
      | [] => .error .truncated
      | pb :: rest' => .ok (.displayUpdateCtrl2 pb, rest')
    | some c => .ok (commandInstr 0#8 c, rest)

/-! ### Both kinds together -/

/-- The binary form of an instruction: a request word, or the bytes of a panel command. -/
inductive Code where
  | request (w : Word)
  | command (bs : List Byte)
  deriving DecidableEq, Repr

/-- Decode a code; total, refusing by name. A command code with bytes left over is decoded by its first command. -/
def decode (o : Opcodes) : Code → Except DecodeError Instr
  | .request w => .ok (decodeRequest w)
  | .command bs => (decodeCommand o bs).map Prod.fst

/-- The code of an instruction: none for a micro-operation (R71). -/
def encode (o : Opcodes) (i : Instr) : Option Code :=
  if i.isRequest then some (.request (encodeRequest i))
  else match i with
    | .displayUpdateCtrl2 pb => some (.command [o.displayUpdateCtrl2, pb])
    | _ => (commandName i).map (fun c => .command [opcodeOf o c])

/-! ### The reference opcode map (R101 to R120, G5), the one spec/opcode_table.json matches -/

/-- PRESUMED (log 7): the opcode bytes of REF, which the spec marks as general knowledge. -/
def refOpcodes : Opcodes where
  swReset := 0x12#8
  driverOutputCtrl := 0x01#8
  dataEntryMode := 0x11#8
  setRamXWindow := 0x44#8
  setRamYWindow := 0x45#8
  setRamXCounter := 0x4E#8
  setRamYCounter := 0x4F#8
  borderWaveform := 0x3C#8
  tempSensorCtrl := 0x18#8
  boosterSoftStart := 0x0C#8
  gateVoltage := 0x03#8
  sourceVoltage := 0x04#8
  writeVcom := 0x2C#8
  writeLut := 0x32#8
  displayUpdateCtrl2 := 0x22#8
  masterActivate := 0x20#8
  writeBwData := 0x24#8
  writeRedData := 0x26#8
  tempControlWrite := 0x1A#8
  deepSleep := 0x10#8

/-- The code a table row's bits stand for: 16 bits are a request word, 8 bits a command byte with the bytes above it zero. -/
def tableCode (nbits w : Nat) : Option Code :=
  if nbits = 16 then some (.request (BitVec.ofNat 16 w))
  else if nbits = 8 then some (.command [BitVec.ofNat 8 w, 0#8])
  else none

/-- The instruction a table word decodes to, under the table's own opcode bytes (log 17). -/
def decodeTableWord (nbits w : Nat) : Option Instr :=
  (tableCode nbits w).bind (fun k => (decode refOpcodes k).toOption)

end Sys2Proof
end

