-- ==== Sys2Proof/Machine/Reference.lean ====
section
/-! DEFINITION. The reference configuration REF of spec/42_panel_commands.md R122, the record the model is constructed with at
reset. PRESUMED (log 7): its opcode bytes, payloads, polarities and packing are the spec's general knowledge; its OPEN entries
are the opaque constants of Config (log 8). -/

namespace Sys2Proof.Machine

/-- REF's `packX(x) = [x]` on 0 to WB - 1 (G3). -/
def refPackX : List (List Byte) := (List.range 16).map (fun x => [BitVec.ofNat 8 x])

/-- REF's `packY(y) = [y[7:0], y[15:8]]` on 0 to H - 1 (G3), low byte first. -/
def refPackY : List (List Byte) :=
  (List.range 296).map (fun y => [BitVec.ofNat 8 y, BitVec.ofNat 8 (y / 256)])

/-- REF's payload bytes (G6 to G12); P_DEEP_SLEEP is sourced (R120). -/
def refPayloads : Payloads where
  driverOutputCtrl := [0x27#8, 0x01#8, 0x00#8]
  dataEntryMode := [0x03#8]
  borderWaveform := [0x05#8]
  tempSensorCtrl := [0x80#8]
  boosterSoftStart := [0x8B#8, 0x9C#8, 0x96#8, 0x0F#8]
  gateVoltage := [0x17#8]
  sourceVoltage := [0x41#8, 0xA8#8, 0x32#8]
  writeVcom := [Config.openVcom]
  deepSleep := [0x01#8]

/-- The reference configuration REF (R122). -/
def refConfig : Config where
  width := 128
  height := 296
  waitBound := Config.openWaitBound + 1
  tRst1 := Config.openDelay .t1
  tRst2 := Config.openDelay .t2
  tRst3 := Config.openDelay .t3
  dcCmdLevel := 0#1
  busyActiveLevel := 1#1
  op := refOpcodes
  payload := refPayloads
  lutLen := 70
  lutFull := (List.range 70).map Config.openLutFull
  lutFast := (List.range 70).map Config.openLutFast
  pbFull := Config.openPbFull
  pbPartial := Config.openPbPartial
  pbFast1 := Config.openPbFast1
  pbFast2 := Config.openPbFast2
  pbFast3 := Config.openPbFast3
  tempOverride := [Config.openTemp 0, Config.openTemp 1]
  clearRed := false
  redFillValue := Config.openRedFill
  packX := refPackX
  packY := refPackY

end Sys2Proof.Machine
end

