-- ==== Sys2Proof/Machine/State.lean ====
section
/-! DEFINITION. The state of EPDSEQ as plain data (spec/10_state.md), the reasons a step can stop, and the state after reset
(R36, R146). -/

namespace Sys2Proof.Machine

/-- The result of a request (R31, R66). -/
inductive Result where
  | ok
  | busError
  | timeout
  | invalidState
  | illegal
  deriving DecidableEq, Repr

/-- The two failures a micro-operation can raise (R128). -/
inductive Failure where
  | busError
  | timeout
  deriving DecidableEq, Repr

/-- The event kinds of the trace (R27). -/
inductive Event where
  | accept (w : Word)
  | line (l : Line) (v : Bit) (a : Ack)
  | byte (d : Bit) (b : Byte) (a : Ack)
  | delay (k : Settle)
  | poll (v : Bit)
  | respond (r : Result)
  deriving DecidableEq, Repr

/-- The run register of a running request (R29). -/
structure Run where
  /-- The decoded request. -/
  req : Instr
  /-- Its expansion. -/
  prog : List Instr
  /-- The index of the current micro-operation. -/
  mpc : Nat
  /-- Bytes already written by DATA, FILL or STREAM; busy polls already made by WAIT (R29, R30). -/
  sub : Nat
  /-- The model's own (log 3): the DC line write of the current CMD, DATA, FILL or STREAM is done. -/
  framed : Bool
  /-- The model's own (log 1): the failure raised by the last action, with which the next step aborts (R74, R128). -/
  raised : Option Failure
  deriving DecidableEq, Repr

/-- Everything the spec gives the machine. -/
structure State where
  /-- The configuration record of construction (R18); no step changes it (log 6). -/
  cfg : Config
  /-- The lifecycle register (R25). -/
  dev : DeviceState
  /-- Last-commanded level of the reset line (R28). -/
  rst : Option Bit
  /-- Last-commanded level of the DC line (R28). -/
  dc : Option Bit
  /-- The model's own (log 10): the last write of the reset line failed, so its pin is any value (R28, U7). -/
  rstFloats : Bool
  /-- The model's own (log 10): the last write of the DC line failed, so its pin is any value (R28, U7). -/
  dcFloats : Bool
  /-- The run register (R29). -/
  cur : Option Run
  /-- The response register (R31). -/
  rsp : Option Result
  /-- The observation, oldest event first (R27). -/
  trace : List Event
  /-- The framebuffer: listed (address, byte) pairs in canonical form (R37, log 9). -/
  fb : List Host.Cell
  /-- The host's request words still to be accepted; the first one stands at the request port while no request runs (R69, R140,
  log 5). -/
  reqs : List Word
  /-- The panel's answers to writes still to come (R20, log 4). -/
  acks : List Ack
  /-- The busy levels still to be read (R20, log 4). -/
  polls : List Bit
  /-- How many free draws have been made (log 4). -/
  drawn : Nat
  deriving DecidableEq, Repr

/-- The four logical orientations of `index_of` (R42). -/
inductive Rotation where
  | r0
  | r1
  | r2
  | r3
  deriving DecidableEq, Repr

/-- What stops the machine with a fault. -/
inductive Fault where
  /-- Raised by STREAM on a framebuffer read at or above FB_LEN (R48, U4); no request's expansion issues one. Safe: it stops. -/
  | framebufferOutOfRange (a : Nat)
  /-- Raised by `indexOf` on an invalid coordinate (R43, U3); no step calls it. Safe: it stops. -/
  | assertion (x y : Nat) (r : Rotation)
  deriving DecidableEq, Repr

/-- What the machine gives no meaning to. -/
inductive Refusal where
  /-- Raised by an arm of exec whose instruction has no meaning yet. Safe: it stops. -/
  | notModelled (mnemonic : String)
  /-- Raised by a micro-operation or panel command when no request runs: they run only inside one (spec/40_transport.md, log 13).
  No step reaches it. Safe: it stops. -/
  | noRequestRunning
  deriving DecidableEq, Repr

/-- The machine at construction (R36, R146), with the configuration REF (log 7) and empty queues of the environment (logs 4, 5). -/
def State.reset : State where
  cfg := refConfig
  dev := .uninitialized
  rst := none
  dc := none
  rstFloats := false
  dcFloats := false
  cur := none
  rsp := none
  trace := []
  fb := []
  reqs := []
  acks := []
  polls := []
  drawn := 0

end Sys2Proof.Machine
end

