-- ==== Sys2Proof/Machine/Operands.lean ====
section
/-! DEFINITION. The operand forms: the levels, coordinates, payloads and profile bytes a request sends. None of them is an
operand of the request word but VALUE and PROF; they come from the configuration and the geometry (spec/30_encoding.md, Operand
assembly). -/

namespace Sys2Proof.Machine

/-- `DC_DATA_LEVEL = 1 − DC_CMD_LEVEL` (R12). -/
def dcDataLevel (c : Config) : Bit := ~~~c.dcCmdLevel

/-- The busy-input level that means not busy (R12, R82). -/
def notBusyLevel (c : Config) : Bit := ~~~c.busyActiveLevel

/-- `packX(x)` (R17). -/
def packX (c : Config) (x : Nat) : List Byte := c.packX.getD x []

/-- `packY(y)` (R17). -/
def packY (c : Config) (y : Nat) : List Byte := c.packY.getD y []

/-- Payload of SET_RAM_X_WINDOW: x_start = 0 and x_end = WB − 1 (R88, R104). -/
def windowX (c : Config) : List Byte := packX c 0 ++ packX c (c.wb - 1)

/-- Payload of SET_RAM_Y_WINDOW: y_start = 0 and y_end = H − 1 (R88, R105). -/
def windowY (c : Config) : List Byte := packY c 0 ++ packY c (c.height - 1)

/-- Payload of SET_RAM_X_COUNTER (R89, R106). -/
def counterX (c : Config) : List Byte := packX c 0

/-- Payload of SET_RAM_Y_COUNTER (R89, R107). -/
def counterY (c : Config) : List Byte := packY c 0

/-- Where the RAM data of WRITE_BW_DATA comes from (R117): CLEAR v sends FB_LEN copies of v (FILL), every other request streams
the framebuffer (STREAM). -/
def bwDataOp (c : Config) : Instr → Instr
  | .clear v => .fill v c.fbLen
  | _ => .stream c.fbLen

/-- The settle delay `T_RSTk` (R11). -/
def settleTime (c : Config) : Settle → Nat
  | .t1 => c.tRst1
  | .t2 => c.tRst2
  | .t3 => c.tRst3

end Sys2Proof.Machine
end

