-- ==== Sys2Proof/Machine/Flags.lean ====
section
/-! DEFINITION. The status values. EPDSEQ has no condition codes; the status a host observes is `dev` and `rsp` (R35). Here are
their codes on the ports, the trigger set that moves `dev` to Busy, and the lifecycle moves of CMD, WAIT and a failed request. -/

namespace Sys2Proof.Machine

/-- The status port encoding of `dev` (R25). -/
def statusCode : DeviceState → BitVec 2
  | .uninitialized => 0#2
  | .idle => 1#2
  | .busy => 2#2
  | .sleeping => 3#2

/-- The response code of a result (R66). -/
def resultCode : Result → BitVec 3
  | .ok => 0#3
  | .busError => 1#3
  | .timeout => 2#3
  | .invalidState => 3#3
  | .illegal => 4#3

/-- The result a raised failure ends its request with (R128). -/
def failureResult : Failure → Result
  | .busError => .busError
  | .timeout => .timeout

/-- The trigger commands (R26). -/
def isTrigger : PanelCmd → Bool
  | .writeBwData | .writeRedData | .writeLut | .masterActivate => true
  | .swReset | .driverOutputCtrl | .dataEntryMode | .setRamXWindow | .setRamYWindow => false
  | .setRamXCounter | .setRamYCounter | .borderWaveform | .tempSensorCtrl | .boosterSoftStart => false
  | .gateVoltage | .sourceVoltage | .writeVcom | .displayUpdateCtrl2 => false
  | .tempControlWrite | .deepSleep => false

/-- `dev` after the command byte of `c` was accepted: a trigger sets Busy, from Idle only (R75). -/
def devAfterCommand (c : PanelCmd) (d : DeviceState) : DeviceState :=
  if isTrigger c = true ∧ d = .idle then .busy else d

/-- `dev` when a WAIT ends, by a not-busy read or by its bound: Busy becomes Idle, anything else stays (R82). -/
def devAfterWait (d : DeviceState) : DeviceState :=
  if d = .busy then .idle else d

/-- `dev` after a request was aborted: Uninitialized after BusError, unchanged after Timeout (R129). -/
def devAfterFailure (e : Failure) (d : DeviceState) : DeviceState :=
  match e with
  | .busError => .uninitialized
  | .timeout => d

end Sys2Proof.Machine
end

