-- ==== Sys2Proof/Machine/Ops.lean ====
section
/-! DEFINITION. The named operations over the state: the trace, the draws from the environment, the line registers, the run
register, the end of a request, the abort, the accesses to the framebuffer, and the actions that micro-operations share. -/

namespace Sys2Proof.Machine

/-! ### The framebuffer as a list of cells (R37) -/

/-- What a framebuffer byte nothing has written reads as. DESIGN CHOICE (log 9): the spec gives no initial contents. -/
def unlistedByte : Byte := 0x00#8

/-- The byte at `a` in a list of cells. -/
def Memory.lookup : List Host.Cell → Nat → Byte
  | [], _ => unlistedByte
  | (k, b) :: rest, a => if k = a then b else Memory.lookup rest a

/-- `MemRead(a, 1)` in a framebuffer of `n` bytes (R37); none outside it (R48). -/
def Memory.read (n : Nat) (m : List Host.Cell) (a : Nat) : Option Byte :=
  if a < n then some (Memory.lookup m a) else none

/-- Store one byte in a list of cells, keeping the canonical form. -/
def Memory.put : List Host.Cell → Nat → Byte → List Host.Cell
  | [], a, b => if b = unlistedByte then [] else [(a, b)]
  | (k, c) :: rest, a, b =>
    if a < k then (if b = unlistedByte then (k, c) :: rest else (a, b) :: (k, c) :: rest)
    else if a = k then (if b = unlistedByte then rest else (a, b) :: rest)
    else (k, c) :: Memory.put rest a b

/-- The addresses rise strictly from `lo` on, and no entry equals what an unlisted address reads as. -/
def Memory.rising : Nat → List Host.Cell → Bool
  | _, [] => true
  | lo, (k, b) :: rest => decide (lo ≤ k) && b != unlistedByte && Memory.rising (k + 1) rest

/-- The canonical form of a framebuffer of `n` bytes. -/
def Memory.wf (n : Nat) (m : List Host.Cell) : Bool :=
  Memory.rising 0 m && m.all (fun cell => decide (cell.1 < n))

/-! ### Trace and draws -/

/-- `Emit(ev)` (R20). -/
def emit (e : Event) (s : State) : State := { s with trace := s.trace ++ [e] }

/-- The answer the next `Ack()` draws (R20): the panel's next answer, or a free value when none is listed (log 4). -/
def nextAck (s : State) : Ack :=
  match s.acks with
  | a :: _ => a
  | [] => Config.freeAck s.drawn

/-- The state after an `Ack()` draw. -/
def dropAck (s : State) : State := { s with acks := s.acks.tail, drawn := s.drawn + 1 }

/-- The level the next `LevelBusy()` draws (R20): the next busy level, or a free value when none is listed (log 4). -/
def nextLevel (s : State) : Bit :=
  match s.polls with
  | v :: _ => v
  | [] => Config.freeLevel s.drawn

/-- The state after a `LevelBusy()` draw. -/
def dropLevel (s : State) : State := { s with polls := s.polls.tail, drawn := s.drawn + 1 }

/-! ### Lines -/

/-- A line write answered ok sets the register, and the pin holds the level (R28, R79). -/
def setLine (l : Line) (v : Bit) (s : State) : State :=
  match l with
  | .rst => { s with rst := some v, rstFloats := false }
  | .dc => { s with dc := some v, dcFloats := false }

/-- A line write answered fail leaves the register; the pin is then any value (R28). -/
def floatLine (l : Line) (s : State) : State :=
  match l with
  | .rst => { s with rstFloats := true }
  | .dc => { s with dcFloats := true }

/-- The register of a line (R28). -/
def lineReg (l : Line) (s : State) : Option Bit :=
  match l with
  | .rst => s.rst
  | .dc => s.dc

/-- Whether the last write of a line was answered fail. -/
def lineFloats (l : Line) (s : State) : Bool :=
  match l with
  | .rst => s.rstFloats
  | .dc => s.dcFloats

/-- The level of a line's pin: the register, but any value before the first drive and after a failed write (R28, U7, U8). -/
def pinLevel (l : Line) (s : State) : Bit :=
  match lineReg l s with
  | some v => if lineFloats l s then Config.freePin l s.drawn else v
  | none => Config.freePin l s.drawn

/-- `s.dc` as the tag of a byte (R75): the last-commanded level; any value before the first drive, which no reachable byte write
meets. -/
def byteLevel (s : State) : Bit :=
  match s.dc with
  | some v => v
  | none => Config.freePin .dc s.drawn

/-! ### The run register (R29) -/

/-- Change the run register of a running request. -/
def mapRun (f : Run → Run) (s : State) : State := { s with cur := s.cur.map f }

/-- A micro-operation finishes: `mpc` advances by one and `sub` is reset (R74). -/
def finish (s : State) : State := mapRun (fun r => { r with mpc := r.mpc + 1, sub := 0, framed := false }) s

/-- The DC line write of the current micro-operation is done. -/
def markFramed (s : State) : State := mapRun (fun r => { r with framed := true }) s

/-- One more byte written, or one more busy poll made (R29, R30). -/
def countOne (s : State) : State := mapRun (fun r => { r with sub := r.sub + 1 }) s

/-- `raise E` (R20, R128): the request is over; the next step aborts it (R74, log 1). -/
def raise (e : Failure) (s : State) : State := mapRun (fun r => { r with raised := some e }) s

/-- Splice the micro-operations of a macro into the place of the current one (spec/41_driver_sequences.md). -/
def splice (ops : List Instr) (s : State) : State :=
  mapRun (fun r => { r with
    prog := r.prog.take r.mpc ++ ops ++ r.prog.drop (r.mpc + 1), sub := 0, framed := false }) s

/-- `s.dev <- d`. -/
def setDev (d : DeviceState) (s : State) : State := { s with dev := d }

/-! ### The end of a request -/

/-- `respond(r)` (R67): the Respond event, then `rsp <- r`, then `cur <- none`. -/
def respond (r : Result) (s : State) : State := { emit (.respond r) s with rsp := some r, cur := none }

/-- Taking a failure (R128, R129, R132): the request ends with the failure's result; nothing else is saved, and after a BusError
`dev` is Uninitialized. The one way a raised failure is taken. -/
def abort (e : Failure) (s : State) : State :=
  respond (failureResult e) (setDev (devAfterFailure e s.dev) s)

/-- Completion (R100). -/
def complete (s : State) : State := respond .ok s

/-! ### The actions micro-operations share -/

/-- One line write (R79), going on with `onOk` where it is answered ok. -/
def writeLine (l : Line) (v : Bit) (onOk : State → State) (s : State) : State :=
  match nextAck s with
  | .ok => onOk (setLine l v (emit (.line l v .ok) (dropAck s)))
  | .fail => raise .busError (floatLine l (emit (.line l v .fail) (dropAck s)))

/-- One byte write at the DC register's level (R47, R49, R75), going on with `onOk` where it is answered ok. -/
def writeByte (b : Byte) (onOk : State → State) (s : State) : State :=
  match nextAck s with
  | .ok => onOk (emit (.byte (byteLevel s) b .ok) (dropAck s))
  | .fail => raise .busError (emit (.byte (byteLevel s) b .fail) (dropAck s))

/-- One busy poll of a WAIT (R82). -/
def pollOnce (n : Nat) (s : State) : State :=
  if nextLevel s ≠ s.cfg.busyActiveLevel then
    finish (setDev (devAfterWait s.dev) (emit (.poll (nextLevel s)) (dropLevel s)))
  else if n + 1 = s.cfg.waitBound then
    raise .timeout (setDev (devAfterWait s.dev) (countOne (emit (.poll (nextLevel s)) (dropLevel s))))
  else countOne (emit (.poll (nextLevel s)) (dropLevel s))

/-- Micro-operations run only inside a request (spec/40_transport.md, log 13). -/
def inRun (s : State) (k : Run → Host.Outcome State Fault Refusal) : Host.Outcome State Fault Refusal :=
  match s.cur with
  | none => .refused .noRequestRunning
  | some r => k r

/-- The next action of a CMD (R75): the DC line to the command level, then the opcode byte, which moves `dev` for a trigger. -/
def commandAction (c : PanelCmd) (s : State) (r : Run) : State :=
  if r.framed then
    writeByte (opcodeOf s.cfg.op c) (fun t => finish (setDev (devAfterCommand c t.dev) t)) s
  else writeLine .dc s.cfg.dcCmdLevel markFramed s

/-- The next action of a payload run of `n` bytes (R76 to R78): the DC line to the data level, once, then byte `sub`; it
finishes with its last byte. `byteAt` gives the byte at an index, or the fault of reading it. -/
def payloadAction (n : Nat) (byteAt : Nat → Except Fault Byte) (s : State) (r : Run) :
    Host.Outcome State Fault Refusal :=
  if r.framed then
    if r.sub < n then
      match byteAt r.sub with
      | .error f => .fault f
      | .ok b => .next (writeByte b (if r.sub + 1 = n then finish else countOne) s)
    else .next (finish s)
  else .next (writeLine .dc (dcDataLevel s.cfg) (if n = 0 then finish else markFramed) s)

/-- The framebuffer byte STREAM reads at index `i` (R78). -/
def streamByte (s : State) (i : Nat) : Except Fault Byte :=
  match Memory.read s.cfg.fbLen s.fb i with
  | some b => .ok b
  | none => .error (.framebufferOutOfRange i)

/-! ### The host's moves -/

/-- The host presents one more request word: only while req_ready is 1, because the host has no move while a request runs
(R69, R140). -/
def present (w : Word) (s : State) : Option State :=
  if s.cur = none then some { s with reqs := s.reqs ++ [w] } else none

/-- The host writes a framebuffer byte: only between requests (R55), only inside the framebuffer (R48). -/
def hostStore (a : Nat) (b : Byte) (s : State) : Option State :=
  if s.cur = none ∧ a < s.cfg.fbLen then some { s with fb := Memory.put s.fb a b } else none

end Sys2Proof.Machine
end

