-- ==== Sys2Proof/Machine/Framebuffer.lean ====
section
/-! DEFINITION. The layout contract of the framebuffer, spec/20_memory.md R41 to R43: `index_of` and its assertion. EPDSEQ never
evaluates it (R5); the host's drawing side does. -/

namespace Sys2Proof.Machine

/-- The logical width under a rotation (R42). -/
def logicalWidth (c : Config) : Rotation → Nat
  | .r0 | .r2 => c.width
  | .r1 | .r3 => c.height

/-- The logical height under a rotation (R42). -/
def logicalHeight (c : Config) : Rotation → Nat
  | .r0 | .r2 => c.height
  | .r1 | .r3 => c.width

/-- A coordinate is valid under a rotation (R42). -/
def validCoord (c : Config) (x y : Nat) (r : Rotation) : Bool :=
  decide (x < logicalWidth c r) && decide (y < logicalHeight c r)

/-- The native coordinate (px, py) of a logical one (the table of R42, the spec's own: log 21). -/
def nativeCoord (c : Config) (x y : Nat) : Rotation → Nat × Nat
  | .r0 => (x, y)
  | .r1 => (c.width - 1 - y, x)
  | .r2 => (c.width - 1 - x, c.height - 1 - y)
  | .r3 => (y, c.height - 1 - x)

/-- The byte that holds native pixel (px, py) (R41). -/
def pixelByte (c : Config) (px py : Nat) : Nat := py * c.wb + px / 8

/-- The mask of native column px in its byte, `0x80 >> (px % 8)` (R41). -/
def pixelMask (px : Nat) : Byte := 0x80#8 >>> (px % 8)

/-- `index_of(x, y, r)` (R42); an invalid coordinate is the unrecoverable assertion of R43 and gives no value. -/
def indexOf (c : Config) (x y : Nat) (r : Rotation) : Except Fault (Nat × Byte) :=
  if validCoord c x y r then
    .ok (pixelByte c (nativeCoord c x y r).1 (nativeCoord c x y r).2, pixelMask (nativeCoord c x y r).1)
  else .error (.assertion x y r)

/-- Where RAM data byte `k` after WRITE_BW_DATA lands in the panel: (x_byte, y) (R52, informative; x first is PRESUMED, log 18). -/
def ramPlace (c : Config) (k : Nat) : Nat × Nat := (k % c.wb, k / c.wb)

end Sys2Proof.Machine
end

