-- ==== Sys2Proof/Machine/Expand.lean ====
section
/-! DEFINITION. The expansions of spec/41_driver_sequences.md: what a request's micro-operations are. Macros are spliced, so an
expansion holds only LINE, DELAY, CMD, DATA, FILL, STREAM, WAIT and SETDEV. -/

namespace Sys2Proof.Machine

/-- `SEND(c, s)` (R21, R84): `CMD(c); DATA(s)`, and `CMD(c)` alone for an empty payload. -/
def sendOps (c : PanelCmd) (bs : List Byte) : List Instr :=
  if bs.isEmpty then [.cmd c] else [.cmd c, .data bs]

/-- `HW_RESET` (R81). -/
def hwResetOps : List Instr :=
  [.line .rst 1#1, .delay .t1, .line .rst 0#1, .delay .t2, .line .rst 1#1, .delay .t3]

/-- `SET_WINDOW` (R88). -/
def setWindowOps (c : Config) : List Instr :=
  sendOps .setRamXWindow (windowX c) ++ sendOps .setRamYWindow (windowY c)

/-- `RESET_COUNTER` (R89). -/
def resetCounterOps (c : Config) : List Instr :=
  sendOps .setRamXCounter (counterX c) ++ sendOps .setRamYCounter (counterY c)

/-- `ACTIVATE(pb)` (R90). -/
def activateOps (pb : Byte) : List Instr :=
  sendOps .displayUpdateCtrl2 [pb] ++ [.cmd .masterActivate, .wait]

/-- `UPD(p)` (R91 to R93, R98). -/
def updOps (c : Config) : Profile → List Instr
  | .full => activateOps c.pbFull
  | .part => activateOps c.pbPartial
  | .fast =>
    activateOps c.pbFast1 ++ sendOps .tempControlWrite c.tempOverride
      ++ activateOps c.pbFast2 ++ activateOps c.pbFast3

/-- `RED_CLEAR` (R97). -/
def redClearOps (c : Config) : List Instr :=
  resetCounterOps c ++ [.cmd .writeRedData, .fill c.redFillValue c.fbLen, .wait]

/-- The expansion of INIT (R86, R87). -/
def initOps (c : Config) : List Instr :=
  [.setdev .uninitialized] ++ hwResetOps ++ [.wait, .cmd .swReset, .wait]
    ++ sendOps .driverOutputCtrl c.payload.driverOutputCtrl
    ++ sendOps .dataEntryMode c.payload.dataEntryMode
    ++ setWindowOps c ++ resetCounterOps c
    ++ sendOps .borderWaveform c.payload.borderWaveform
    ++ sendOps .tempSensorCtrl c.payload.tempSensorCtrl
    ++ sendOps .boosterSoftStart c.payload.boosterSoftStart
    ++ sendOps .gateVoltage c.payload.gateVoltage
    ++ sendOps .sourceVoltage c.payload.sourceVoltage
    ++ sendOps .writeVcom c.payload.writeVcom
    ++ sendOps .writeLut c.lutFull ++ [.wait, .setdev .idle]

/-- The expansion of WRITE_AND_UPDATE p (R94). -/
def writeAndUpdateOps (c : Config) (p : Profile) : List Instr :=
  setWindowOps c ++ resetCounterOps c ++ [.cmd .writeBwData, .stream c.fbLen] ++ updOps c p
    ++ (if c.clearRed then redClearOps c else [])

/-- The expansion of CLEAR v (R95). -/
def clearOps (c : Config) (v : Byte) : List Instr :=
  setWindowOps c ++ resetCounterOps c ++ [.cmd .writeBwData, .fill v c.fbLen] ++ updOps c .full

/-- The expansion of SLEEP (R96). -/
def sleepOps (c : Config) : List Instr :=
  sendOps .deepSleep c.payload.deepSleep ++ [.setdev .sleeping]

/-- `expand` (R85): the expansion of a request; what is no legal request has none. -/
def expand (c : Config) : Instr → List Instr
  | .init => initOps c
  | .writeAndUpdateFull => writeAndUpdateOps c .full
  | .writeAndUpdateFast => writeAndUpdateOps c .fast
  | .writeAndUpdatePartial => writeAndUpdateOps c .part
  | .updateFull => updOps c .full
  | .updateFast => updOps c .fast
  | .updatePartial => updOps c .part
  | .clear v => clearOps c v
  | .sleep => sleepOps c
  | .illegal _ => []
  | .swReset | .driverOutputCtrl | .dataEntryMode | .setRamXWindow | .setRamYWindow => []
  | .setRamXCounter | .setRamYCounter | .borderWaveform | .tempSensorCtrl | .boosterSoftStart => []
  | .gateVoltage | .sourceVoltage | .writeVcom | .writeLut | .displayUpdateCtrl2 _ => []
  | .masterActivate | .writeBwData | .writeRedData | .tempControlWrite | .deepSleep => []
  | .cmd _ | .data _ | .fill _ _ | .stream _ | .line _ _ => []
  | .delay _ | .hwReset | .wait | .setdev _ | .send _ _ => []

end Sys2Proof.Machine
end

