-- ==== Sys2Proof/Machine/Transport.lean ====
section
/-! DEFINITION. The meanings of the ten micro-operation rows, spec/40_transport.md R75 to R84. Each meaning is ONE step: the next
action of the micro-operation, whose place is kept in the run register (R74). -/

namespace Sys2Proof.Machine

/-- CMD(c) (R75). -/
def execCmd (c : PanelCmd) (s : State) : Host.Outcome State Fault Refusal :=
  inRun s (fun r => .next (commandAction c s r))

/-- DATA(s) (R76). -/
def execData (bs : List Byte) (s : State) : Host.Outcome State Fault Refusal :=
  inRun s (payloadAction bs.length (fun i => .ok (bs.getD i 0#8)) s)

/-- FILL(v, n), the same as DATA(rep(v, n)) (R77). -/
def execFill (v : Byte) (n : Nat) (s : State) : Host.Outcome State Fault Refusal :=
  inRun s (payloadAction n (fun _ => .ok v) s)

/-- STREAM(n): byte `i` is read and written in one step, unchanged (R78, R45). -/
def execStream (n : Nat) (s : State) : Host.Outcome State Fault Refusal :=
  inRun s (payloadAction n (streamByte s) s)

/-- LINE(l, v) (R79). -/
def execLine (l : Line) (v : Bit) (s : State) : Host.Outcome State Fault Refusal :=
  inRun s (fun _ => .next (writeLine l v finish s))

/-- DELAY(k) (R80): the event alone; the model gives it no duration (R156). -/
def execDelay (k : Settle) (s : State) : Host.Outcome State Fault Refusal :=
  inRun s (fun _ => .next (finish (emit (.delay k) s)))

/-- HW_RESET (R81), a macro: spliced, and its first line write done. -/
def execHwReset (s : State) : Host.Outcome State Fault Refusal :=
  execLine .rst 1#1 (splice hwResetOps s)

/-- WAIT (R82): one busy poll. -/
def execWait (s : State) : Host.Outcome State Fault Refusal :=
  inRun s (fun r => .next (pollOnce r.sub s))

/-- SETDEV(d) (R83): no event; a step of its own (log 2). -/
def execSetdev (d : DeviceState) (s : State) : Host.Outcome State Fault Refusal :=
  inRun s (fun _ => .next (finish (setDev d s)))

/-- SEND(c, s) (R84), a macro: spliced, and the first action of its CMD done. -/
def execSend (c : PanelCmd) (bs : List Byte) (s : State) : Host.Outcome State Fault Refusal :=
  execCmd c (splice (sendOps c bs) s)

end Sys2Proof.Machine
end

