-- ==== Sys2Proof/Machine/Commands.lean ====
section
/-! DEFINITION. The meanings of the twenty panel command rows, spec/42_panel_commands.md R101 to R120: each is
`SEND(<name>, <payload>)` with the payload its rule gives, run inside a request one action a step (R74). -/

namespace Sys2Proof.Machine

/-- SW_RESET, no payload (R101). -/
def execSwReset (s : State) : Host.Outcome State Fault Refusal := execSend .swReset [] s

/-- DRIVER_OUTPUT_CTRL (R102). -/
def execDriverOutputCtrl (s : State) : Host.Outcome State Fault Refusal :=
  execSend .driverOutputCtrl s.cfg.payload.driverOutputCtrl s

/-- DATA_ENTRY_MODE (R103). -/
def execDataEntryMode (s : State) : Host.Outcome State Fault Refusal :=
  execSend .dataEntryMode s.cfg.payload.dataEntryMode s

/-- SET_RAM_X_WINDOW (R104). -/
def execSetRamXWindow (s : State) : Host.Outcome State Fault Refusal :=
  execSend .setRamXWindow (windowX s.cfg) s

/-- SET_RAM_Y_WINDOW (R105). -/
def execSetRamYWindow (s : State) : Host.Outcome State Fault Refusal :=
  execSend .setRamYWindow (windowY s.cfg) s

/-- SET_RAM_X_COUNTER (R106). -/
def execSetRamXCounter (s : State) : Host.Outcome State Fault Refusal :=
  execSend .setRamXCounter (counterX s.cfg) s

/-- SET_RAM_Y_COUNTER (R107). -/
def execSetRamYCounter (s : State) : Host.Outcome State Fault Refusal :=
  execSend .setRamYCounter (counterY s.cfg) s

/-- BORDER_WAVEFORM (R108). -/
def execBorderWaveform (s : State) : Host.Outcome State Fault Refusal :=
  execSend .borderWaveform s.cfg.payload.borderWaveform s

/-- TEMP_SENSOR_CTRL (R109). -/
def execTempSensorCtrl (s : State) : Host.Outcome State Fault Refusal :=
  execSend .tempSensorCtrl s.cfg.payload.tempSensorCtrl s

/-- BOOSTER_SOFT_START (R110). -/
def execBoosterSoftStart (s : State) : Host.Outcome State Fault Refusal :=
  execSend .boosterSoftStart s.cfg.payload.boosterSoftStart s

/-- GATE_VOLTAGE (R111). -/
def execGateVoltage (s : State) : Host.Outcome State Fault Refusal :=
  execSend .gateVoltage s.cfg.payload.gateVoltage s

/-- SOURCE_VOLTAGE (R112). -/
def execSourceVoltage (s : State) : Host.Outcome State Fault Refusal :=
  execSend .sourceVoltage s.cfg.payload.sourceVoltage s

/-- WRITE_VCOM (R113). -/
def execWriteVcom (s : State) : Host.Outcome State Fault Refusal :=
  execSend .writeVcom s.cfg.payload.writeVcom s

/-- WRITE_LUT with the Full LUT, the only table any request loads (R99, R114). -/
def execWriteLut (s : State) : Host.Outcome State Fault Refusal :=
  execSend .writeLut s.cfg.lutFull s

/-- DISPLAY_UPDATE_CTRL2 with one profile byte (R115). -/
def execDisplayUpdateCtrl2 (pb : Byte) (s : State) : Host.Outcome State Fault Refusal :=
  execSend .displayUpdateCtrl2 [pb] s

/-- MASTER_ACTIVATE, no payload (R116). -/
def execMasterActivate (s : State) : Host.Outcome State Fault Refusal :=
  execSend .masterActivate [] s

/-- WRITE_BW_DATA with FB_LEN RAM bytes (R117): the running request says whether they are CLEAR's fill or the framebuffer. -/
def execWriteBwData (s : State) : Host.Outcome State Fault Refusal :=
  inRun s (fun r => execCmd .writeBwData (splice [.cmd .writeBwData, bwDataOp s.cfg r.req] s))

/-- WRITE_RED_DATA with FB_LEN copies of RED_FILL_VALUE (R118). -/
def execWriteRedData (s : State) : Host.Outcome State Fault Refusal :=
  execCmd .writeRedData (splice [.cmd .writeRedData, .fill s.cfg.redFillValue s.cfg.fbLen] s)

/-- TEMP_CONTROL_WRITE with TEMP_OVERRIDE (R119). -/
def execTempControlWrite (s : State) : Host.Outcome State Fault Refusal :=
  execSend .tempControlWrite s.cfg.tempOverride s

/-- DEEP_SLEEP (R120). -/
def execDeepSleep (s : State) : Host.Outcome State Fault Refusal :=
  execSend .deepSleep s.cfg.payload.deepSleep s

end Sys2Proof.Machine
end

