-- ==== Sys2Proof/Machine/Requests.lean ====
section
/-! DEFINITION. The meanings of the ten request rows: executing a request is accepting its word (R69) and dispatching it (R85).
The run it starts is stepped micro-operation by micro-operation (R74). -/

namespace Sys2Proof.Machine

/-- Dispatch after the Accept event (R85, R131): Illegal first, then InvalidState (R127), else the run starts. -/
def dispatch (i : Instr) (s : State) : State :=
  match i with
  | .illegal _ => respond .illegal s
  | _ =>
    if i ≠ .init ∧ (s.dev = .uninitialized ∨ s.dev = .sleeping) then respond .invalidState s
    else { s with cur := some ⟨i, expand s.cfg i, 0, 0, false, none⟩ }

/-- A request at the request port: accepted only when no request runs; while one runs the word is held and nothing happens
(R69, R140). -/
def request (i : Instr) (s : State) : Host.Outcome State Fault Refusal :=
  match s.cur with
  | none => .next (dispatch i (emit (.accept (encodeRequest i)) s))
  | some _ => .next s

/-- INIT (R86). -/
def execInit (s : State) : Host.Outcome State Fault Refusal := request .init s

/-- WRITE_AND_UPDATE FULL (R94). -/
def execWriteAndUpdateFull (s : State) : Host.Outcome State Fault Refusal := request .writeAndUpdateFull s

/-- WRITE_AND_UPDATE FAST (R94). -/
def execWriteAndUpdateFast (s : State) : Host.Outcome State Fault Refusal := request .writeAndUpdateFast s

/-- WRITE_AND_UPDATE PARTIAL (R94). -/
def execWriteAndUpdatePartial (s : State) : Host.Outcome State Fault Refusal := request .writeAndUpdatePartial s

/-- UPDATE FULL (R91). -/
def execUpdateFull (s : State) : Host.Outcome State Fault Refusal := request .updateFull s

/-- UPDATE FAST (R93). -/
def execUpdateFast (s : State) : Host.Outcome State Fault Refusal := request .updateFast s

/-- UPDATE PARTIAL (R92). -/
def execUpdatePartial (s : State) : Host.Outcome State Fault Refusal := request .updatePartial s

/-- CLEAR v (R95). -/
def execClear (v : Byte) (s : State) : Host.Outcome State Fault Refusal := request (.clear v) s

/-- SLEEP (R96). -/
def execSleep (s : State) : Host.Outcome State Fault Refusal := request .sleep s

/-- An Illegal word (R62): answered at once, with no bus event. -/
def execIllegal (w : Word) (s : State) : Host.Outcome State Fault Refusal := request (.illegal w) s

end Sys2Proof.Machine
end

