-- ==== Sys2Proof/Machine/Dispatch.lean ====
section
/-! DEFINITION. exec: one arm per row of the opcode table. -/

namespace Sys2Proof.Machine

def exec (i : Instr) (s : State) : Host.Outcome State Fault Refusal :=
  match i with
  -- requests
  | .init => Sys2Proof.Machine.execInit s
  | .writeAndUpdateFull => Sys2Proof.Machine.execWriteAndUpdateFull s
  | .writeAndUpdateFast => Sys2Proof.Machine.execWriteAndUpdateFast s
  | .writeAndUpdatePartial => Sys2Proof.Machine.execWriteAndUpdatePartial s
  | .updateFull => Sys2Proof.Machine.execUpdateFull s
  | .updateFast => Sys2Proof.Machine.execUpdateFast s
  | .updatePartial => Sys2Proof.Machine.execUpdatePartial s
  | .clear v => Sys2Proof.Machine.execClear v s
  | .sleep => Sys2Proof.Machine.execSleep s
  | .illegal w => Sys2Proof.Machine.execIllegal w s
  -- panel commands
  | .swReset => Sys2Proof.Machine.execSwReset s
  | .driverOutputCtrl => Sys2Proof.Machine.execDriverOutputCtrl s
  | .dataEntryMode => Sys2Proof.Machine.execDataEntryMode s
  | .setRamXWindow => Sys2Proof.Machine.execSetRamXWindow s
  | .setRamYWindow => Sys2Proof.Machine.execSetRamYWindow s
  | .setRamXCounter => Sys2Proof.Machine.execSetRamXCounter s
  | .setRamYCounter => Sys2Proof.Machine.execSetRamYCounter s
  | .borderWaveform => Sys2Proof.Machine.execBorderWaveform s
  | .tempSensorCtrl => Sys2Proof.Machine.execTempSensorCtrl s
  | .boosterSoftStart => Sys2Proof.Machine.execBoosterSoftStart s
  | .gateVoltage => Sys2Proof.Machine.execGateVoltage s
  | .sourceVoltage => Sys2Proof.Machine.execSourceVoltage s
  | .writeVcom => Sys2Proof.Machine.execWriteVcom s
  | .writeLut => Sys2Proof.Machine.execWriteLut s
  | .displayUpdateCtrl2 pb => Sys2Proof.Machine.execDisplayUpdateCtrl2 pb s
  | .masterActivate => Sys2Proof.Machine.execMasterActivate s
  | .writeBwData => Sys2Proof.Machine.execWriteBwData s
  | .writeRedData => Sys2Proof.Machine.execWriteRedData s
  | .tempControlWrite => Sys2Proof.Machine.execTempControlWrite s
  | .deepSleep => Sys2Proof.Machine.execDeepSleep s
  -- micro-operations
  | .cmd c => Sys2Proof.Machine.execCmd c s
  | .data bs => Sys2Proof.Machine.execData bs s
  | .fill v n => Sys2Proof.Machine.execFill v n s
  | .stream n => Sys2Proof.Machine.execStream n s
  | .line l v => Sys2Proof.Machine.execLine l v s
  | .delay k => Sys2Proof.Machine.execDelay k s
  | .hwReset => Sys2Proof.Machine.execHwReset s
  | .wait => Sys2Proof.Machine.execWait s
  | .setdev d => Sys2Proof.Machine.execSetdev d s
  | .send c bs => Sys2Proof.Machine.execSend c bs s

end Sys2Proof.Machine
end

