-- ==== Sys2Proof/Machine/Fetch.lean ====
section
/-! DEFINITION. Which of the four kinds of step comes next (R74), and where an instruction is placed so that the next step runs
it. The sequencer does not fetch at a program counter: a request is taken from the request port (R69, R140), a micro-operation
from the expansion of the running request (R29). -/

namespace Sys2Proof.Machine

/-- What the next step does (R74). -/
inductive Action where
  /-- No request runs and the host presents none: req_ready = 1, req_valid = 0 (R140, log 5). -/
  | waitForRequest
  /-- Execute instruction `i` in the state `s`: a request just taken from the port, or the current micro-operation. -/
  | execute (i : Instr) (s : State)
  /-- Abort the running request with the failure its last action raised (R128). -/
  | abort (e : Failure)
  /-- Complete the running request (R100). -/
  | complete

/-- The kind of the next step. -/
def nextAction (s : State) : Action :=
  match s.cur with
  | none =>
    match s.reqs with
    | [] => .waitForRequest
    | w :: rest => .execute (decodeRequest w) { s with reqs := rest }
  | some r =>
    match r.raised with
    | some e => .abort e
    | none =>
      match r.prog[r.mpc]? with
      | some i => .execute i s
      | none => .complete

/-- Place a request word at the request port of a sequencer with no running request. -/
def placeRequest (w : Word) (s : State) : State := { s with cur := none, reqs := w :: s.reqs }

/-- Place one panel command as the only instruction of a running expansion (log 17). -/
def placeCommand (i : Instr) (s : State) : State := { s with cur := some ⟨i, [i], 0, 0, false, none⟩ }

/-- Place a code where the next step runs it; a code that decodes to nothing changes nothing. -/
def placeCode (k : Code) (s : State) : State :=
  match k with
  | .request w => placeRequest w s
  | .command bs =>
    match decode refOpcodes (.command bs) with
    | .ok i => placeCommand i s
    | .error _ => s

end Sys2Proof.Machine
end

