-- ==== Sys2Proof/Machine/Step.lean ====
section
/-! DEFINITION. One step of EPDSEQ (spec/40_transport.md R74). -/

namespace Sys2Proof.Machine

/-- One step: accept a request, perform one action of the current micro-operation, complete, or abort (R74). With no request
running and none presented, the sequencer waits and nothing changes (log 5). -/
def step (s : State) : Host.Outcome State Fault Refusal :=
  match nextAction s with
  | .waitForRequest => .next s
  | .execute i t => exec i t
  | .abort e => .next (abort e s)
  | .complete => .next (complete s)

/-- `s` with the table word `w` of `nbits` bits placed where `step` takes its next instruction (log 17). -/
def State.withFetchWord (s : State) (nbits w : Nat) : State :=
  match tableCode nbits w with
  | some k => placeCode k s
  | none => s

end Sys2Proof.Machine
end

