-- ==== Sys2Proof/Machine/Ports.lean ====
section
/-! DEFINITION. The signals of the two interfaces as functions of the state: the host side (R140) and the panel side (R139). -/

namespace Sys2Proof.Machine

/-- req_ready: 1 exactly when no request runs (R140). -/
def reqReady (s : State) : Bool := s.cur.isNone

/-- req_valid: the host presents a word, which it does only when req_ready = 1 (R69, R140, log 5). -/
def reqValid (s : State) : Bool := reqReady s && !s.reqs.isEmpty

/-- req_word: the word presented, if any. -/
def reqWord (s : State) : Option Word := if reqReady s then s.reqs.head? else none

/-- status: `dev` in 2 bits (R25, R140). -/
def statusPort (s : State) : BitVec 2 := statusCode s.dev

/-- rsp_code: the code of the last result, once there is one (R31, R66). -/
def rspCode (s : State) : Option (BitVec 3) := s.rsp.map resultCode

/-- rsp_valid at an event: 1 exactly at a Respond event (R140). -/
def rspValidAt : Event → Bool
  | .respond _ => true
  | _ => false

/-- rsp_valid since construction: its level at each event, in order, and last its level now, between two events. Each Respond event
is one pulse (R140); that the pulse is over when its event is over is a DESIGN CHOICE (log 23). -/
def rspValid (s : State) : List Bool := s.trace.map rspValidAt ++ [false]

/-- The pulses of a signal: how often it goes from 0 to 1, `before` being its level so far. -/
def pulses (before : Bool) : List Bool → Nat
  | [] => 0
  | now :: rest => (if now && !before then 1 else 0) + pulses now rest

/-- fb_addr: the framebuffer address the next step reads for a running STREAM (R37, R78). DESIGN CHOICE (log 24): where the next
step reads nothing, as after a byte answered fail, the model states no address; and the 13 bits, which R37 derives for FB_LEN = 4736,
hold the address modulo 2^13 on a panel whose FB_LEN exceeds 2^13. -/
def fbAddr (s : State) : Option (BitVec 13) :=
  match s.cur with
  | none => none
  | some r =>
    match r.prog[r.mpc]? with
    | some (.stream n) =>
      if r.raised = none ∧ r.framed = true ∧ r.sub < n then some (BitVec.ofNat 13 r.sub) else none
    | _ => none

/-- fb_data: the byte the host answers at an address, the byte stored there (R140). -/
def fbData (s : State) (a : Nat) : Option Byte := Memory.read s.cfg.fbLen s.fb a

/-- rst_out (R139): 1 is run, 0 is in reset. -/
def rstOut (s : State) : Bit := pinLevel .rst s

/-- dc_out (R139). -/
def dcOut (s : State) : Bit := pinLevel .dc s

end Sys2Proof.Machine
end

