-- ==== Sys2Proof/Machine/TraceReader.lean ====
section
/-! DEFINITION. What a reader of the trace can tell from it (R27, R63 to R65): levels, results, bus words and transactions. The
machine never reads its trace. -/

namespace Sys2Proof.Machine

/-- One event's effect on the level a reader holds for line `l`: an ok-answered write of that line sets it. -/
def levelStep (l : Line) (acc : Option Bit) (e : Event) : Option Bit :=
  match e with
  | .line l' v .ok => if l' = l then some v else acc
  | _ => acc

/-- The level the last ok-answered write of line `l` drove, none before the first. -/
def lastLevel (l : Line) (tr : List Event) : Option Bit := tr.foldl (levelStep l) none

/-- One event's effect on the result a reader holds. -/
def resultStep (acc : Option Result) (e : Event) : Option Result :=
  match e with
  | .respond r => some r
  | _ => acc

/-- The result of the last Respond event, none before the first. -/
def lastResult (tr : List Event) : Option Result := tr.foldl resultStep none

/-- One event of the request protocol (R67, R69): an Accept opens a request, a Respond closes it, every other event stands
inside one. -/
def openStep (acc : Option Bool) (e : Event) : Option Bool :=
  match acc, e with
  | some false, .accept _ => some true
  | some true, .respond _ => some false
  | some true, .line _ _ _ => some true
  | some true, .byte _ _ _ => some true
  | some true, .delay _ => some true
  | some true, .poll _ => some true
  | _, _ => none

/-- Reading the request protocol off a trace: `some false` while no request is open, `some true` while one is, `none` once an
event stood where it may not. -/
def openAfter (tr : List Event) : Option Bool := tr.foldl openStep (some false)

/-- The bus words written, in order, whatever the panel answers: (DC level, byte) (R27, R63, R65). -/
def busWords (tr : List Event) : List (Bit × Byte) :=
  tr.filterMap (fun e =>
    match e with
    | .byte d b _ => some (d, b)
    | _ => none)

/-- The bus words the panel accepted, in order: those answered ok (R49). -/
def acceptedWords (tr : List Event) : List (Bit × Byte) :=
  tr.filterMap (fun e =>
    match e with
    | .byte d b .ok => some (d, b)
    | _ => none)

/-- The Accept events, the requests accepted (R27, R69). -/
def isAccept : Event → Bool
  | .accept _ => true
  | _ => false

/-- The transactions of a bus word sequence (R64, R65): an opcode starts one, payload extends it. Payload with no opcode before
it belongs to none. Over `busWords` a byte answered fail counts as written: a command byte so answered starts a transaction. -/
def transactions (c : Config) (ws : List (Bit × Byte)) : List (Byte × List Byte) :=
  (ws.foldl (fun acc w =>
    if w.1 = c.dcCmdLevel then (w.2, []) :: acc
    else match acc with
      | (op, ps) :: rest => (op, ps ++ [w.2]) :: rest
      | [] => []) []).reverse

/-- The command bytes of a bus word sequence, in order (E4). -/
def commandBytes (c : Config) (ws : List (Bit × Byte)) : List Byte :=
  (ws.filter (fun w => decide (w.1 = c.dcCmdLevel))).map Prod.snd

/-- One event of the framing a reader checks: a byte must carry the level of the last ok-answered DC write. -/
def framingStep (acc : Option Bit × Bool) (e : Event) : Option Bit × Bool :=
  match e with
  | .byte d _ _ => (acc.1, acc.2 && acc.1 == some d)
  | e => (levelStep .dc acc.1 e, acc.2)

/-- Every byte of the trace carries the level of the last ok-answered DC write before it (R63, R65, R75). -/
def bytesFramed (tr : List Event) : Bool := (tr.foldl framingStep (none, true)).2

end Sys2Proof.Machine
end

