-- ==== Sys2Proof/Safety.lean ====
section
/-! DEFINITION. What counts as a safe run, in the terms the claims use: the lifecycle invariant of a state, the invariant of its
trace, the work a running request has left, and the events a healthy panel lets an expansion produce. -/

namespace Sys2Proof

/-- A legal request: a request row other than ILLEGAL (R58). -/
def Instr.isLegalRequest : Instr → Bool
  | .illegal _ => false
  | i => i.isRequest

/-- The eight micro-operations an expansion is written in (R21). -/
def Instr.isPrimitive : Instr → Bool
  | .cmd _ | .data _ | .fill _ _ | .stream _ | .line _ _ | .delay _ | .wait | .setdev _ => true
  | _ => false

end Sys2Proof

namespace Sys2Proof.Machine

/-- `k` steps of the machine, as the host's interface runs them, at the model's own types. -/
def runSteps (k : Nat) (s : State) : Host.Outcome State Fault Refusal := Host.Core.run Sys2Proof.core k s

/-! ### The lifecycle of a run -/

/-- `dev` after micro-operation `i` finished without raising (R75, R82, R83). -/
def devAfterOp (d : DeviceState) (i : Instr) : DeviceState :=
  match i with
  | .cmd c => devAfterCommand c d
  | .wait => devAfterWait d
  | .setdev d' => d'
  | _ => d

/-- `dev` after a list of micro-operations finished without raising. -/
def devAfterOps (d : DeviceState) (ops : List Instr) : DeviceState := ops.foldl devAfterOp d

/-- The state a legal request leaves when it completes with Ok: Sleeping after SLEEP (R96), Idle after every other (R87, R91 to
R95). -/
def finalDev : Instr → DeviceState
  | .sleep => .sleeping
  | _ => .idle

/-- Where a run can stand inside its current micro-operation (R29, R30): `sub` counts bytes written or busy polls made. -/
def placeOk (c : Config) (op : Option Instr) (r : Run) : Prop :=
  match op with
  | some (.cmd _) => r.sub = 0
  | some (.data bs) => if r.framed then r.sub < bs.length else r.sub = 0
  | some (.fill _ n) => if r.framed then r.sub < n else r.sub = 0
  | some (.stream n) => if r.framed then r.sub < n else r.sub = 0
  | some .wait => r.framed = false ∧ r.sub < c.waitBound
  | _ => r.framed = false ∧ r.sub = 0

/-- The level DC holds inside a micro-operation that has driven it: the command level for CMD, else the data level (R75, R76). -/
def frameLevel (c : Config) (op : Option Instr) : Bit :=
  match op with
  | some (.cmd _) => c.dcCmdLevel
  | _ => dcDataLevel c

/-- The run register is one a legal request can have. -/
structure RunOk (s : State) (r : Run) : Prop where
  /-- The request is legal: Illegal words start no run (R85). -/
  legal : r.req.isLegalRequest = true
  /-- The program is the request's expansion (R29, R55). -/
  prog : r.prog = expand s.cfg r.req
  /-- The micro-sequence pointer is inside the program or at its end (R74). -/
  inside : r.mpc ≤ r.prog.length
  /-- The place inside the current micro-operation. -/
  place : r.raised = none → placeOk s.cfg r.prog[r.mpc]? r
  /-- A micro-operation that has driven DC finds it at its own level (R75, R76). -/
  level : r.raised = none → r.framed = true → s.dc = some (frameLevel s.cfg r.prog[r.mpc]?)
  /-- A failure is raised by a micro-operation of the program (R128). -/
  stopped : r.raised ≠ none → r.mpc < r.prog.length
  /-- What is left of the program leads to the request's final state. -/
  life : r.raised = none → devAfterOps s.dev (r.prog.drop r.mpc) = finalDev r.req
  /-- Inside INIT `dev` is Uninitialized from its first micro-operation on (R86, R129); inside any other request it is Idle or Busy. -/
  during : r.mpc < r.prog.length →
    if r.req = .init then r.mpc = 0 ∨ s.dev = .uninitialized else s.dev = .idle ∨ s.dev = .busy
  /-- A raised Timeout found `dev` back at Idle, but Uninitialized in INIT (R129). -/
  timedOut : r.raised = some .timeout → s.dev = if r.req = .init then .uninitialized else .idle

/-- The lifecycle invariant. -/
structure Inv (s : State) : Prop where
  /-- The configuration meets the constraints of the spec (R9 to R17). -/
  cfg : s.cfg.wf = true
  /-- The framebuffer is in canonical form. -/
  fb : Memory.wf s.cfg.fbLen s.fb = true
  /-- `dev` is never Busy while no request runs (R85). -/
  idle : s.cur = none → s.dev ≠ .busy
  /-- A running request has a run register it can have. -/
  run : ∀ r, s.cur = some r → RunOk s r

/-! ### The trace -/

/-- The trace and the registers agree (R27, R28, R31, R67): the line registers hold the last levels answered ok, `rsp` is the last
result, and exactly the requests accepted and not yet answered are open. -/
structure TraceAgrees (s : State) : Prop where
  rst : lastLevel .rst s.trace = s.rst
  dc : lastLevel .dc s.trace = s.dc
  rsp : lastResult s.trace = s.rsp
  open_ : openAfter s.trace = some s.cur.isSome

/-! ### The work a request has left (R159) -/

/-- The most steps a primitive micro-operation can take. -/
def opWork (c : Config) : Instr → Nat
  | .cmd _ => 2
  | .data bs => 1 + bs.length
  | .fill _ n => 1 + n
  | .stream n => 1 + n
  | .line _ _ => 1
  | .delay _ => 1
  | .wait => c.waitBound
  | .setdev _ => 1
  | _ => 0

/-- The most steps a running request can still take until it has responded: one to abort once a failure is raised; else what is
left of its program and one to complete. -/
def workLeft (s : State) : Nat :=
  match s.cur with
  | none => 0
  | some r =>
    match r.raised with
    | some _ => 1
    | none => 1 + (((r.prog.drop r.mpc).map (opWork s.cfg)).sum - r.sub - (if r.framed then 1 else 0))

/-! ### A healthy panel: every write answered ok, every first poll not busy -/

/-- The events of a primitive micro-operation on a healthy panel (R75 to R82). -/
def opEvents (c : Config) (fb : List Host.Cell) : Instr → List Event
  | .cmd k => [.line .dc c.dcCmdLevel .ok, .byte c.dcCmdLevel (opcodeOf c.op k) .ok]
  | .data bs => .line .dc (dcDataLevel c) .ok :: bs.map (fun b => .byte (dcDataLevel c) b .ok)
  | .fill v n => .line .dc (dcDataLevel c) .ok :: List.replicate n (.byte (dcDataLevel c) v .ok)
  | .stream n =>
    .line .dc (dcDataLevel c) .ok ::
      (List.range n).map (fun i => .byte (dcDataLevel c) (Memory.lookup fb i) .ok)
  | .line l v => [.line l v .ok]
  | .delay k => [.delay k]
  | .wait => [.poll (notBusyLevel c)]
  | _ => []

/-- The events of an expansion on a healthy panel. -/
def healthyEvents (c : Config) (fb : List Host.Cell) (ops : List Instr) : List Event :=
  ops.flatMap (opEvents c fb)

/-- How many writes a micro-operation makes on a healthy panel, each of which draws an answer. -/
def opAcks : Instr → Nat
  | .cmd _ => 2
  | .data bs => 1 + bs.length
  | .fill _ n => 1 + n
  | .stream n => 1 + n
  | .line _ _ => 1
  | _ => 0

/-- How many polls a micro-operation makes on a healthy panel. -/
def opPolls : Instr → Nat
  | .wait => 1
  | _ => 0

/-- How many steps a micro-operation takes on a healthy panel. -/
def opSteps : Instr → Nat
  | .cmd _ => 2
  | .data bs => 1 + bs.length
  | .fill _ n => 1 + n
  | .stream n => 1 + n
  | .line _ _ | .delay _ | .wait | .setdev _ => 1
  | _ => 0

/-- The writes an expansion makes on a healthy panel. -/
def totalAcks (ops : List Instr) : Nat := (ops.map opAcks).sum

/-- The polls an expansion makes on a healthy panel. -/
def totalPolls (ops : List Instr) : Nat := (ops.map opPolls).sum

/-- The steps an expansion takes on a healthy panel. -/
def totalSteps (ops : List Instr) : Nat := (ops.map opSteps).sum

/-! ### The wait-after-trigger contract (R151) -/

/-- Every trigger command of a program is followed, later in it, by a WAIT. -/
def triggersWaited : List Instr → Bool
  | [] => true
  | .cmd c :: rest => (!isTrigger c || rest.contains .wait) && triggersWaited rest
  | _ :: rest => triggersWaited rest

/-- The panel commands of a program, in order. -/
def commandsOf (ops : List Instr) : List PanelCmd :=
  ops.filterMap (fun i =>
    match i with
    | .cmd c => some c
    | _ => none)

/-! ### The payload of a panel command row (R101 to R120) -/

/-- The payload bytes of a panel command row inside a run of request `req`, by the rule of the row. -/
def rowPayload (c : Config) (fb : List Host.Cell) (req : Instr) : Instr → List Byte
  | .driverOutputCtrl => c.payload.driverOutputCtrl
  | .dataEntryMode => c.payload.dataEntryMode
  | .setRamXWindow => packX c 0 ++ packX c (c.wb - 1)
  | .setRamYWindow => packY c 0 ++ packY c (c.height - 1)
  | .setRamXCounter => packX c 0
  | .setRamYCounter => packY c 0
  | .borderWaveform => c.payload.borderWaveform
  | .tempSensorCtrl => c.payload.tempSensorCtrl
  | .boosterSoftStart => c.payload.boosterSoftStart
  | .gateVoltage => c.payload.gateVoltage
  | .sourceVoltage => c.payload.sourceVoltage
  | .writeVcom => c.payload.writeVcom
  | .writeLut => c.lutFull
  | .displayUpdateCtrl2 pb => [pb]
  | .writeBwData =>
    match req with
    | .clear v => List.replicate c.fbLen v
    | _ => (List.range c.fbLen).map (Memory.lookup fb)
  | .writeRedData => List.replicate c.fbLen c.redFillValue
  | .tempControlWrite => c.tempOverride
  | .deepSleep => c.payload.deepSleep
  | _ => []

/-- What a panel command row puts into the program after its CMD: nothing for an empty payload, else DATA, and for the two RAM
writes the FILL or STREAM their rules name (R84, R97, R117, R118). -/
def rowTail (c : Config) (fb : List Host.Cell) (req : Instr) (i : Instr) : List Instr :=
  match i with
  | .writeBwData =>
    match req with
    | .clear v => [.fill v c.fbLen]
    | _ => [.stream c.fbLen]
  | .writeRedData => [.fill c.redFillValue c.fbLen]
  | _ => if rowPayload c fb req i = [] then [] else [.data (rowPayload c fb req i)]

/-- The bytes a payload micro-operation writes: DATA its sequence, FILL its copies, STREAM the framebuffer in ascending order
(R76 to R78). -/
def payloadBytes (fb : List Host.Cell) : Instr → Option (List Byte)
  | .data bs => some bs
  | .fill v n => some (List.replicate n v)
  | .stream n => some ((List.range n).map (Memory.lookup fb))
  | _ => none

/-- STREAM stays inside the framebuffer (R78). -/
def streamInside (c : Config) : Instr → Bool
  | .stream n => decide (n ≤ c.fbLen)
  | _ => true

end Sys2Proof.Machine
end

