-- ==== Sys2Proof/Certificates/Slice0/Obligations.lean ====
section
/-! DEFINITION. The statements for the provers, in the order of the spec's files. Each docstring names the rule it formalises. -/

open Sys2Proof Sys2Proof.Machine

/-! ### Encoding (spec/30_encoding.md) -/

/-- R57, R72: decoding the code of a well-formed instruction gives the instruction back, for any distinct opcode parameters. -/
def Obligations.CodesRoundTrip : Prop :=
  ∀ (c : Config) (i : Instr) (k : Code),
    opcodesDistinct c.op = true → i.wellFormed c = true → encode c.op i = some k →
      decode c.op k = .ok i

/-- R57, R62: every one of the 65536 words decodes to a request, and no bit of the word is lost. -/
def Obligations.DecodedWordsEncodeBack : Prop :=
  ∀ w : Word, (decodeRequest w).isRequest = true ∧ encodeRequest (decodeRequest w) = w

/-- R62: a word that meets one of the five conditions is Illegal and is answered at once with result Illegal whatever `dev` is:
no bus event, nothing but `rsp` (and the trace) changed; every other word is a legal request. -/
def Obligations.IllegalWordsAnsweredIllegal : Prop :=
  (∀ w : Word,
    (((opcField w = 0#4 ∨ 6#4 ≤ opcField w) ∨ rsvField w ≠ 0#2 ∨ profField w = 3#2
      ∨ (profField w ≠ 0#2 ∧ (opcField w = 1#4 ∨ opcField w = 4#4 ∨ opcField w = 5#4))
      ∨ (valueField w ≠ 0#8 ∧ opcField w ≠ 4#4)) → decodeRequest w = .illegal w)
    ∧ (¬((opcField w = 0#4 ∨ 6#4 ≤ opcField w) ∨ rsvField w ≠ 0#2 ∨ profField w = 3#2
      ∨ (profField w ≠ 0#2 ∧ (opcField w = 1#4 ∨ opcField w = 4#4 ∨ opcField w = 5#4))
      ∨ (valueField w ≠ 0#8 ∧ opcField w ≠ 4#4)) → (decodeRequest w).isLegalRequest = true))
  ∧ ∀ (w : Word) (s : State), s.cur = none →
      exec (.illegal w) s = .next { s with
        rsp := some .illegal, trace := s.trace ++ [.accept w, .respond .illegal] }

/-- R58, R59, R70 and R101 to R120 (reference bytes): a few words written out from their tables decode to their instructions. -/
def Obligations.WrittenOutWordsDecode : Prop :=
  decodeRequest 0x1000#16 = .init ∧ decodeRequest 0x2100#16 = .writeAndUpdateFast
  ∧ decodeRequest 0x3200#16 = .updatePartial ∧ decodeRequest 0x40FF#16 = .clear 0xFF#8
  ∧ decodeRequest 0x5000#16 = .sleep ∧ decodeRequest 0x4C00#16 = .illegal 0x4C00#16
  ∧ decodeTableWord 8 0x12 = some .swReset ∧ decodeTableWord 8 0x4E = some .setRamXCounter
  ∧ decodeTableWord 8 0x20 = some .masterActivate ∧ decodeTableWord 8 0x10 = some .deepSleep

/-- R71: the micro-operations have no binary form, and every other instruction has one. -/
def Obligations.OnlyMicroOpsHaveNoCode : Prop :=
  ∀ (o : Opcodes) (i : Instr), encode o i = none ↔ i.isMicro = true

/-- R72: a byte that is no opcode of the vocabulary is refused by name. -/
def Obligations.UnlistedCommandBytesRefused : Prop :=
  ∀ (o : Opcodes) (b : Byte) (rest : List Byte), (∀ c : PanelCmd, opcodeOf o c ≠ b) →
    decodeCommand o (b :: rest) = .error (.notACommand b)

/-- R25, R66: the codes on the status port and the response port; the codes 5 to 7 are never produced. -/
def Obligations.StatusAndResultCodes : Prop :=
  (∀ s : State, statusPort s =
    (match s.dev with | .uninitialized => 0#2 | .idle => 1#2 | .busy => 2#2 | .sleeping => 3#2))
  ∧ (∀ (s : State) (k : BitVec 3), rspCode s = some k → k ≤ 4#3)
  ∧ resultCode .ok = 0#3 ∧ resultCode .busError = 1#3 ∧ resultCode .timeout = 2#3
  ∧ resultCode .invalidState = 3#3 ∧ resultCode .illegal = 4#3

/-! ### Reset and the invariants (spec/10_state.md, spec/70_reset_and_hazards.md) -/

/-- R146: the state at construction; no event is produced, the pins are at any level until first driven, and the first step is the
acceptance of the host's first word. -/
def Obligations.ResetIsConstruction : Prop :=
  State.reset.dev = .uninitialized ∧ State.reset.rst = none ∧ State.reset.dc = none
  ∧ State.reset.cur = none ∧ State.reset.rsp = none ∧ State.reset.trace = []
  ∧ (∀ l : Line, pinLevel l State.reset = Config.freePin l 0)
  ∧ ∀ (w : Word) (rest : List Word), ∃ t,
      step { State.reset with reqs := w :: rest } = .next t ∧ t.reqs = rest
      ∧ t.trace.head? = some (.accept w)

/-- Construction meets the lifecycle invariant and agrees with its trace. -/
def Obligations.ResetMeetsInvariants : Prop :=
  Inv State.reset ∧ TraceAgrees State.reset ∧ bytesFramed State.reset.trace = true

/-- R24, R25, R29, R30, R55, R129: every step keeps the lifecycle invariant, from every state that meets it. -/
def Obligations.StepKeepsLifecycle : Prop :=
  ∀ s t : State, Inv s → step s = .next t → Inv t

/-- R27, R28, R31, R67, R69: every step of any state keeps the registers in agreement with the trace. -/
def Obligations.StepKeepsTraceAgreement : Prop :=
  ∀ s t : State, TraceAgrees s → step s = .next t → TraceAgrees t

/-- R63, R65: every byte on the bus carries the level of the last ok-answered DC write before it. -/
def Obligations.StepKeepsBytesFramed : Prop :=
  ∀ s t : State, Inv s → TraceAgrees s → bytesFramed s.trace = true → step s = .next t →
    bytesFramed t.trace = true

/-- R126, R159: from a state that meets the invariant no step faults and none is refused. -/
def Obligations.InvariantStateNeverStops : Prop :=
  ∀ s : State, Inv s → ∃ t, step s = .next t

/-- R85: on every run from construction, over any number of steps, whatever the configuration, framebuffer, request words and answers, `dev` is not Busy
while no request runs. -/
def Obligations.NeverBusyBetweenRequests : Prop :=
  ∀ (c : Config) (fb : List Host.Cell) (ws : List Word) (as : List Ack) (vs : List Bit) (n : Nat)
    (t : State),
    c.wf = true → Memory.wf c.fbLen fb = true →
    runSteps n
      { State.reset with cfg := c, fb := fb, reqs := ws, acks := as, polls := vs } = .next t →
    t.cur = none → t.dev ≠ .busy

/-- R18, R34, R37: no instruction and no step writes the configuration or the framebuffer. That the configuration is a field of State
is log 6; that no instruction takes from the host's queue of words rests on the model's queue, log 5 (DESIGN CHOICE). -/
def Obligations.ConfigAndFramebufferAreNeverWritten : Prop :=
  (∀ (i : Instr) (s t : State), exec i s = .next t →
    t.cfg = s.cfg ∧ t.reqs = s.reqs
    ∧ ∀ a : Nat, Memory.read t.cfg.fbLen t.fb a = Memory.read s.cfg.fbLen s.fb a)
  ∧ ∀ s t : State, step s = .next t →
    t.cfg = s.cfg ∧ ∀ a : Nat, Memory.read t.cfg.fbLen t.fb a = Memory.read s.cfg.fbLen s.fb a

/-- R74: a step adds at most two events to the trace, two only where a word is accepted and answered at once, and removes none. -/
def Obligations.StepAddsFewEvents : Prop :=
  ∀ s t : State, step s = .next t →
    ∃ evs : List Event, t.trace = s.trace ++ evs ∧
      (evs.length ≤ 1 ∨ ∃ w r, evs = [.accept w, .respond r])

/-- R31, R140: `rsp` is written only together with a Respond event, which ends the request; and in every state that agrees with
its trace rsp_valid has pulsed once per Respond event, that is once per accepted request but for one still running. That a pulse is
over when its event is over is log 23 (DESIGN CHOICE). -/
def Obligations.RspWrittenWithRespond : Prop :=
  (∀ s t : State, step s = .next t →
    t.rsp = s.rsp ∨ ∃ r, t.rsp = some r ∧ t.cur = none ∧ t.trace.getLast? = some (.respond r))
  ∧ ∀ s : State, TraceAgrees s →
    pulses false (rspValid s) = s.trace.countP rspValidAt
    ∧ s.trace.countP isAccept = pulses false (rspValid s) + (if s.cur.isSome then 1 else 0)

/-- R25, R75, R82, R83, R129: the only transitions of `dev` a step makes. -/
def Obligations.DevTransitions : Prop :=
  ∀ s t : State, step s = .next t →
    t.dev = s.dev ∨ ∃ r, s.cur = some r ∧
      ((r.raised = some .busError ∧ t.dev = .uninitialized)
      ∨ (r.raised = none ∧ s.dev = .idle ∧ t.dev = .busy
          ∧ ∃ c, r.prog[r.mpc]? = some (.cmd c)
            ∧ (c = .writeBwData ∨ c = .writeRedData ∨ c = .writeLut ∨ c = .masterActivate))
      ∨ (r.raised = none ∧ s.dev = .busy ∧ t.dev = .idle ∧ r.prog[r.mpc]? = some .wait)
      ∨ (r.raised = none ∧ r.prog[r.mpc]? = some (.setdev t.dev)))

/-- R143, R153: nothing but INIT leaves Sleeping, and while `dev` is Sleeping no line, byte, delay or poll event occurs. -/
def Obligations.OnlyInitLeavesSleeping : Prop :=
  ∀ s t : State, Inv s → s.dev = .sleeping → step s = .next t →
    (t.dev = .sleeping ∨ ∃ r, s.cur = some r ∧ r.req = .init)
    ∧ ∃ evs : List Event, t.trace = s.trace ++ evs ∧
        ∀ e ∈ evs, (∃ w, e = .accept w) ∨ ∃ r, e = .respond r

/-! ### The framebuffer (spec/20_memory.md) -/

/-- R43: a valid coordinate gives a byte offset below FB_LEN and a mask with exactly one bit set; an invalid one is the
assertion and gives no value; no step raises that assertion. -/
def Obligations.IndexOfInBoundsOrAsserts : Prop :=
  (∀ (c : Config) (x y : Nat) (r : Rotation), c.wf = true →
    (x < logicalWidth c r → y < logicalHeight c r →
      ∃ off mask, indexOf c x y r = .ok (off, mask) ∧ off < c.fbLen
        ∧ ∃ k : Nat, k < 8 ∧ mask = 1#8 <<< k)
    ∧ (¬(x < logicalWidth c r ∧ y < logicalHeight c r) → indexOf c x y r = .error (.assertion x y r)))
  ∧ ∀ (s : State) (x y : Nat) (r : Rotation), step s ≠ .fault (.assertion x y r)

/-- R41, R42: under one rotation two valid coordinates never share a bit of the framebuffer. -/
def Obligations.IndexOfInjective : Prop :=
  ∀ (c : Config) (x y x' y' : Nat) (r : Rotation) (p : Nat × Byte), c.wf = true →
    indexOf c x y r = .ok p → indexOf c x' y' r = .ok p → x = x' ∧ y = y'

/-- R41, R52 (informative; x first is the spec's general knowledge, log 18): RAM byte `k` lands on the eight pixels framebuffer
byte `k` holds. -/
def Obligations.RamPlaceMatchesLayout : Prop :=
  ∀ (c : Config) (px py : Nat), c.wf = true → px < c.width → py < c.height →
    ramPlace c (pixelByte c px py) = (px / 8, py)

/-- R37, R55 (the guard is the model's reading of the host's duty, log 22): the host writes the framebuffer only between
requests and inside it; the byte written reads back, every other byte is unchanged, and the canonical form is kept. -/
def Obligations.HostStoreWritesOneByte : Prop :=
  ∀ (a : Nat) (b : Byte) (s : State),
    ((s.cur ≠ none ∨ s.cfg.fbLen ≤ a) → hostStore a b s = none)
    ∧ (s.cur = none → a < s.cfg.fbLen → ∃ t, hostStore a b s = some t
        ∧ t = { s with fb := t.fb }
        ∧ (Memory.wf s.cfg.fbLen s.fb = true →
            Memory.read t.cfg.fbLen t.fb a = some b
            ∧ (∀ a', a' ≠ a → Memory.read t.cfg.fbLen t.fb a' = Memory.read s.cfg.fbLen s.fb a')
            ∧ Memory.wf t.cfg.fbLen t.fb = true))

/-- R48: a framebuffer read at or above FB_LEN is stuck. -/
def Obligations.StreamOutsideFramebufferFaults : Prop :=
  ∀ (n : Nat) (s : State) (r : Run), s.cur = some r → r.framed = true → r.sub < n →
    s.cfg.fbLen ≤ r.sub → exec (.stream n) s = .fault (.framebufferOutOfRange r.sub)

/-! ### One step (spec/40_transport.md R74, spec/41_driver_sequences.md R85) -/

/-- R69, R74: with no request running the step executes the decoded request word, taken off the port; inside a run it executes the
current micro-operation of the program. -/
def Obligations.StepRunsInstruction : Prop :=
  (∀ (s : State) (w : Word) (rest : List Word), s.cur = none → s.reqs = w :: rest →
    step s = exec (decodeRequest w) { s with reqs := rest })
  ∧ (∀ (s : State) (r : Run) (i : Instr), s.cur = some r → r.raised = none →
    r.prog[r.mpc]? = some i → step s = exec i s)

/-- R100: when `mpc` has reached the end of the program, the next step answers Ok; a request that raised does not get there, it is
answered with its failure, in a step of its own (log 1, DEDUCED). -/
def Obligations.CompletionAnswersOk : Prop :=
  ∀ (s : State) (r : Run), s.cur = some r →
    (r.raised = none → r.mpc = r.prog.length →
      step s = .next { s with rsp := some .ok, cur := none, trace := s.trace ++ [.respond .ok] })
    ∧ ∀ e : Failure, r.raised = some e →
      ∃ t, step s = .next t ∧ t.cur = none ∧ t.rsp = some (failureResult e) ∧ t.rsp ≠ some .ok

/-- R128, R129 (a), R132 (the abort as a step of its own: log 1, DEDUCED): once a failure is raised the next step ends the request
with it: BusError leaves `dev` Uninitialized,
Timeout leaves `dev` as WAIT left it; nothing else is saved. -/
def Obligations.AbortEndsRequest : Prop :=
  ∀ (s : State) (r : Run), s.cur = some r →
    (r.raised = some .busError → step s = .next { s with
      rsp := some .busError, cur := none, dev := .uninitialized,
      trace := s.trace ++ [.respond .busError] })
    ∧ (r.raised = some .timeout → step s = .next { s with
      rsp := some .timeout, cur := none, trace := s.trace ++ [.respond .timeout] })

/-- R129 (the abort as a step of its own: log 1, DEDUCED): what `dev` is once a request of a state that meets the invariant was aborted: Uninitialized after BusError and after any
failure of INIT, Idle after a Timeout of any other request. -/
def Obligations.DevAfterFailure : Prop :=
  ∀ (s t : State) (r : Run) (e : Failure), Inv s → s.cur = some r → r.raised = some e →
    step s = .next t →
    t.dev = if e = .busError ∨ r.req = .init then .uninitialized else .idle

/-- R85: a legal request, INIT in any `dev` or another from Idle, is accepted and its run starts with its expansion: all nine
legal request constructors. -/
def Obligations.LegalRequestsStartTheirRun : Prop :=
  ∀ (i : Instr) (s : State), i.isLegalRequest = true → s.cur = none → (i = .init ∨ s.dev = .idle) →
    exec i s = .next { s with
      trace := s.trace ++ [.accept (encodeRequest i)],
      cur := some { req := i, prog := expand s.cfg i, mpc := 0, sub := 0, framed := false,
                    raised := none } }

/-- R127: a legal request other than INIT is answered InvalidState from Uninitialized and from Sleeping, with no line, byte,
delay or poll event and `dev` unchanged; INIT never is. -/
def Obligations.InvalidStateCheck : Prop :=
  (∀ (i : Instr) (s : State), i.isLegalRequest = true → i ≠ .init → s.cur = none →
    (s.dev = .uninitialized ∨ s.dev = .sleeping) →
    exec i s = .next { s with
      rsp := some .invalidState,
      trace := s.trace ++ [.accept (encodeRequest i), .respond .invalidState] })
  ∧ (∀ s : State, s.cur = none → ∃ t, exec .init s = .next t ∧ t.cur ≠ none ∧ t.rsp = s.rsp)

/-- R147: from construction, and from every other Uninitialized state with no running request, every legal word but INIT's is answered
InvalidState and every Illegal word Illegal, with no bus event and nothing else changed. -/
def Obligations.FirstRequestMustBeInit : Prop :=
  ∀ (s : State) (w : Word) (rest : List Word), s.cur = none → s.dev = .uninitialized → s.reqs = w :: rest →
    (w ≠ 0x1000#16 → isIllegalWord w = false →
      step s = .next { s with
        reqs := rest, rsp := some .invalidState, trace := s.trace ++ [.accept w, .respond .invalidState] })
    ∧ (isIllegalWord w = true →
      step s = .next { s with
        reqs := rest, rsp := some .illegal, trace := s.trace ++ [.accept w, .respond .illegal] })

/-- The handshake of R69 and R140 in the model's reading (log 5): while a request runs the host can present no word, none is at the
port, and a request executed all the same changes nothing; while none runs a word presented joins the host's words; with none running
and none presented a step changes nothing. -/
def Obligations.RequestPortHandshake : Prop :=
  (∀ (i : Instr) (s : State), i.isRequest = true → s.cur ≠ none → exec i s = .next s)
  ∧ (∀ (w : Word) (s : State),
    (s.cur ≠ none → present w s = none ∧ reqReady s = false ∧ reqValid s = false ∧ reqWord s = none)
    ∧ (s.cur = none → present w s = some { s with reqs := s.reqs ++ [w] } ∧ reqReady s = true))
  ∧ ∀ s : State, s.cur = none → s.reqs = [] → step s = .next s

/-- spec/40_transport.md, Micro-operations run only inside a request (log 13): outside one, a micro-operation or panel command is
refused by name. -/
def Obligations.MicroOpsOutsideRunRefused : Prop :=
  ∀ (i : Instr) (s : State), i.isRequest = false → s.cur = none → exec i s = .refused .noRequestRunning

/-! ### Micro-operations (spec/40_transport.md) -/

/-- R79: LINE(l, v). Answered ok, the register holds the level and the micro-operation finishes; answered fail, the register is
unchanged, BusError is raised and the pin is at any level. Nothing else changes but the draw and the trace (and the model's mark of the
floating pin, log 10). -/
def Obligations.LineWrite : Prop :=
  ∀ (l : Line) (v : Bit) (s : State) (r : Run), s.cur = some r →
    (nextAck s = .ok → exec (.line l v) s = .next { s with
      rst := if l = .rst then some v else s.rst,
      dc := if l = .dc then some v else s.dc,
      rstFloats := if l = .rst then false else s.rstFloats,
      dcFloats := if l = .dc then false else s.dcFloats,
      acks := s.acks.tail, drawn := s.drawn + 1,
      cur := some { r with mpc := r.mpc + 1, sub := 0, framed := false },
      trace := s.trace ++ [.line l v .ok] })
    ∧ (nextAck s = .fail → exec (.line l v) s = .next { s with
      rstFloats := if l = .rst then true else s.rstFloats,
      dcFloats := if l = .dc then true else s.dcFloats,
      acks := s.acks.tail, drawn := s.drawn + 1,
      cur := some { r with raised := some .busError },
      trace := s.trace ++ [.line l v .fail] })
    ∧ (nextAck s = .fail → ∀ t, exec (.line l v) s = .next t → pinLevel l t = Config.freePin l t.drawn)

/-- R75: CMD(c), first action: DC is driven to the command level, even if it already holds it; answered fail, BusError is raised
and no byte is written. -/
def Obligations.CommandDrivesDc : Prop :=
  ∀ (c : PanelCmd) (s : State) (r : Run), s.cur = some r → r.framed = false →
    (nextAck s = .ok → exec (.cmd c) s = .next { s with
      dc := some s.cfg.dcCmdLevel, dcFloats := false,
      acks := s.acks.tail, drawn := s.drawn + 1, cur := some { r with framed := true },
      trace := s.trace ++ [.line .dc s.cfg.dcCmdLevel .ok] })
    ∧ (nextAck s = .fail → exec (.cmd c) s = .next { s with
      dcFloats := true,
      acks := s.acks.tail, drawn := s.drawn + 1, cur := some { r with raised := some .busError },
      trace := s.trace ++ [.line .dc s.cfg.dcCmdLevel .fail] })

/-- R26, R65, R75: CMD(c), second action: the opcode byte at the level of the DC register. Accepted, a trigger command sets `dev` Busy
from Idle and only from Idle; rejected, BusError is raised and `dev` is not set Busy. Written with DC at the command level, accepted or
rejected, it starts a transaction of its own for a reader of the trace. -/
def Obligations.CommandByte : Prop :=
  ∀ (c : PanelCmd) (s : State) (r : Run) (d : Bit), s.cur = some r → r.framed = true →
    s.dc = some d →
    (nextAck s = .ok → exec (.cmd c) s = .next { s with
      dev := if (c = .writeBwData ∨ c = .writeRedData ∨ c = .writeLut ∨ c = .masterActivate)
                ∧ s.dev = .idle then .busy else s.dev,
      acks := s.acks.tail, drawn := s.drawn + 1,
      cur := some { r with mpc := r.mpc + 1, sub := 0, framed := false },
      trace := s.trace ++ [.byte d (opcodeOf s.cfg.op c) .ok] })
    ∧ (nextAck s = .fail → exec (.cmd c) s = .next { s with
      acks := s.acks.tail, drawn := s.drawn + 1, cur := some { r with raised := some .busError },
      trace := s.trace ++ [.byte d (opcodeOf s.cfg.op c) .fail] })
    ∧ (d = s.cfg.dcCmdLevel → ∀ t : State, exec (.cmd c) s = .next t →
      transactions s.cfg (busWords t.trace)
        = transactions s.cfg (busWords s.trace) ++ [(opcodeOf s.cfg.op c, [])])

/-- R76, R77, R78: DATA, FILL and STREAM, first action: DC is driven to the data level, once; answered fail, BusError is raised. -/
def Obligations.PayloadDrivesDc : Prop :=
  ∀ (i : Instr) (bs : List Byte) (s : State) (r : Run), s.cur = some r → r.framed = false →
    payloadBytes s.fb i = some bs → bs ≠ [] →
    (nextAck s = .ok → exec i s = .next { s with
      dc := some (~~~s.cfg.dcCmdLevel), dcFloats := false,
      acks := s.acks.tail, drawn := s.drawn + 1, cur := some { r with framed := true },
      trace := s.trace ++ [.line .dc (~~~s.cfg.dcCmdLevel) .ok] })
    ∧ (nextAck s = .fail → exec i s = .next { s with
      dcFloats := true,
      acks := s.acks.tail, drawn := s.drawn + 1, cur := some { r with raised := some .busError },
      trace := s.trace ++ [.line .dc (~~~s.cfg.dcCmdLevel) .fail] })

/-- R76, R77, R78: DATA, FILL and STREAM, byte `sub` of the payload, unchanged, at the level of the DC register; the last byte
finishes the micro-operation, a rejected one raises BusError and no byte after it is written. -/
def Obligations.PayloadByte : Prop :=
  ∀ (i : Instr) (bs : List Byte) (s : State) (r : Run) (d : Bit) (b : Byte), s.cur = some r →
    r.framed = true → s.dc = some d → payloadBytes s.fb i = some bs → streamInside s.cfg i = true →
    bs[r.sub]? = some b →
    (nextAck s = .ok → exec i s = .next { s with
      acks := s.acks.tail, drawn := s.drawn + 1,
      cur := some (if r.sub + 1 = bs.length then { r with mpc := r.mpc + 1, sub := 0, framed := false }
                   else { r with sub := r.sub + 1 }),
      trace := s.trace ++ [.byte d b .ok] })
    ∧ (nextAck s = .fail → exec i s = .next { s with
      acks := s.acks.tail, drawn := s.drawn + 1, cur := some { r with raised := some .busError },
      trace := s.trace ++ [.byte d b .fail] })

/-- R77: FILL(v, n) is the same as DATA(rep(v, n)), in every state, and n = FB_LEN in every use. -/
def Obligations.FillIsDataOfCopies : Prop :=
  (∀ (v : Byte) (n : Nat) (s : State), exec (.fill v n) s = exec (.data (List.replicate n v)) s)
  ∧ ∀ (c : Config) (i : Instr) (v : Byte) (n : Nat), .fill v n ∈ expand c i → n = c.fbLen

/-- R76, R78, R45: a payload micro-operation on a panel that accepts every write puts the data level and then every byte, in
order and unchanged, on the bus, in 1 + n steps, and finishes. -/
def Obligations.PayloadRunWritesEveryByte : Prop :=
  ∀ (i : Instr) (bs : List Byte) (s : State) (r : Run) (more : List Ack), s.cur = some r →
    r.raised = none → r.prog[r.mpc]? = some i → r.framed = false → r.sub = 0 →
    payloadBytes s.fb i = some bs → streamInside s.cfg i = true → bs ≠ [] →
    s.acks = List.replicate (1 + bs.length) .ok ++ more →
    runSteps (1 + bs.length) s = .next { s with
      dc := some (~~~s.cfg.dcCmdLevel), dcFloats := false, acks := more,
      drawn := s.drawn + (1 + bs.length),
      cur := some { r with mpc := r.mpc + 1, sub := 0, framed := false },
      trace := s.trace ++ .line .dc (~~~s.cfg.dcCmdLevel) .ok
        :: bs.map (fun b => .byte (~~~s.cfg.dcCmdLevel) b .ok) }

/-- R80: DELAY(k) emits its event and finishes; no line changes. -/
def Obligations.DelayEmitsItsEvent : Prop :=
  ∀ (k : Settle) (s : State) (r : Run), s.cur = some r →
    exec (.delay k) s = .next { s with
      cur := some { r with mpc := r.mpc + 1, sub := 0, framed := false },
      trace := s.trace ++ [.delay k] }

/-- R82: one poll of WAIT. Not busy: Busy becomes Idle and the WAIT finishes. Busy: the poll is counted; when the count reaches
WAIT_BOUND, Busy becomes Idle and Timeout is raised. WAIT never writes a line or the bus. -/
def Obligations.WaitPoll : Prop :=
  ∀ (s : State) (r : Run), s.cur = some r →
    (nextLevel s ≠ s.cfg.busyActiveLevel → exec .wait s = .next { s with
      dev := if s.dev = .busy then .idle else s.dev,
      polls := s.polls.tail, drawn := s.drawn + 1,
      cur := some { r with mpc := r.mpc + 1, sub := 0, framed := false },
      trace := s.trace ++ [.poll (nextLevel s)] })
    ∧ (nextLevel s = s.cfg.busyActiveLevel → r.sub + 1 ≠ s.cfg.waitBound → exec .wait s = .next { s with
      polls := s.polls.tail, drawn := s.drawn + 1, cur := some { r with sub := r.sub + 1 },
      trace := s.trace ++ [.poll s.cfg.busyActiveLevel] })
    ∧ (nextLevel s = s.cfg.busyActiveLevel → r.sub + 1 = s.cfg.waitBound → exec .wait s = .next { s with
      dev := if s.dev = .busy then .idle else s.dev,
      polls := s.polls.tail, drawn := s.drawn + 1,
      cur := some { r with sub := r.sub + 1, raised := some .timeout },
      trace := s.trace ++ [.poll s.cfg.busyActiveLevel] })

/-- R82, E5: a WAIT whose busy input never deasserts makes exactly WAIT_BOUND polls and then the request is answered Timeout. The
last of the WAIT_BOUND + 1 steps is the abort, a step of its own (log 1, DEDUCED). -/
def Obligations.StuckBusyTimesOut : Prop :=
  ∀ (s : State) (r : Run) (more : List Bit), s.cur = some r → r.raised = none →
    r.prog[r.mpc]? = some .wait → r.sub = 0 → 1 ≤ s.cfg.waitBound →
    s.polls = List.replicate s.cfg.waitBound s.cfg.busyActiveLevel ++ more →
    runSteps (s.cfg.waitBound + 1) s = .next { s with
      dev := if s.dev = .busy then .idle else s.dev,
      polls := more, drawn := s.drawn + s.cfg.waitBound, rsp := some .timeout, cur := none,
      trace := s.trace ++ List.replicate s.cfg.waitBound (.poll s.cfg.busyActiveLevel)
        ++ [.respond .timeout] }

/-- R83: SETDEV(d) writes `dev` and emits nothing (that it is a step of its own is the model's choice, log 2). -/
def Obligations.SetdevWritesDev : Prop :=
  ∀ (d : DeviceState) (s : State) (r : Run), s.cur = some r →
    exec (.setdev d) s = .next { s with
      dev := d, cur := some { r with mpc := r.mpc + 1, sub := 0, framed := false } }

/-- R81: HW_RESET is spliced and drives the reset line high, both in its first step (log 12, DEDUCED); run to its end on a panel that accepts the writes, it drives the line
high, low, high with a delay after each drive, and leaves it at 1. -/
def Obligations.HwResetDrivesResetLine : Prop :=
  ∀ (s : State) (r : Run) (more : List Ack), s.cur = some r → s.acks = .ok :: .ok :: .ok :: more →
    exec .hwReset s = .next { s with
      rst := some 1#1, rstFloats := false, acks := .ok :: .ok :: more, drawn := s.drawn + 1,
      cur := some { r with
        prog := r.prog.take r.mpc
          ++ [.line .rst 1#1, .delay .t1, .line .rst 0#1, .delay .t2, .line .rst 1#1, .delay .t3]
          ++ r.prog.drop (r.mpc + 1),
        mpc := r.mpc + 1, sub := 0, framed := false },
      trace := s.trace ++ [.line .rst 1#1 .ok] }
    ∧ (r.raised = none → r.prog[r.mpc]? = some .hwReset →
      runSteps 6 s = .next { s with
        rst := some 1#1, rstFloats := false, acks := more, drawn := s.drawn + 3,
        cur := some { r with
          prog := r.prog.take r.mpc
            ++ [.line .rst 1#1, .delay .t1, .line .rst 0#1, .delay .t2, .line .rst 1#1, .delay .t3]
            ++ r.prog.drop (r.mpc + 1),
          mpc := r.mpc + 6, sub := 0, framed := false },
        trace := s.trace ++ [.line .rst 1#1 .ok, .delay .t1, .line .rst 0#1 .ok, .delay .t2,
          .line .rst 1#1 .ok, .delay .t3] })

/-- R84: SEND(c, s) is exactly CMD(c); DATA(s), and CMD(c) alone for an empty payload: it is spliced so, and its first action, in the
same step (log 12, DEDUCED), is that of CMD(c). -/
def Obligations.SendIsCmdThenData : Prop :=
  ∀ (c : PanelCmd) (bs : List Byte) (s : State) (r : Run), s.cur = some r →
    exec (.send c bs) s = exec (.cmd c) { s with
      cur := some { r with
        prog := r.prog.take r.mpc ++ (if bs = [] then [.cmd c] else [.cmd c, .data bs])
          ++ r.prog.drop (r.mpc + 1),
        sub := 0, framed := false } }
    ∧ (nextAck s = .ok → exec (.send c bs) s = .next { s with
        dc := some s.cfg.dcCmdLevel, dcFloats := false,
        acks := s.acks.tail, drawn := s.drawn + 1,
        cur := some { r with
          prog := r.prog.take r.mpc ++ (if bs = [] then [.cmd c] else [.cmd c, .data bs])
            ++ r.prog.drop (r.mpc + 1),
          sub := 0, framed := true },
        trace := s.trace ++ [.line .dc s.cfg.dcCmdLevel .ok] })

/-! ### Panel commands (spec/42_panel_commands.md) -/

/-- R101 to R120: executing a panel command row starts its SEND: DC goes to the command level, and the program goes on with the
command byte and the payload its rule gives; answered fail, BusError is raised and no byte is written: all twenty panel command
constructors. That a row is its SEND, spliced and begun in one step, and that WRITE_BW_DATA streams in every request but CLEAR, is
log 12 (DEDUCED); the mark of the floating pin is log 10. -/
def Obligations.PanelCommandsStartTheirSend : Prop :=
  ∀ (i : Instr) (k : PanelCmd) (s : State) (r : Run), commandName i = some k → s.cur = some r →
    (nextAck s = .ok → exec i s = .next { s with
      dc := some s.cfg.dcCmdLevel, dcFloats := false,
      acks := s.acks.tail, drawn := s.drawn + 1,
      cur := some { r with
        prog := r.prog.take r.mpc ++ (.cmd k :: rowTail s.cfg s.fb r.req i) ++ r.prog.drop (r.mpc + 1),
        sub := 0, framed := true },
      trace := s.trace ++ [.line .dc s.cfg.dcCmdLevel .ok] })
    ∧ (nextAck s = .fail → exec i s = .next { s with
      dcFloats := true,
      acks := s.acks.tail, drawn := s.drawn + 1,
      cur := some { r with
        prog := r.prog.take r.mpc ++ (.cmd k :: rowTail s.cfg s.fb r.req i) ++ r.prog.drop (r.mpc + 1),
        sub := 0, framed := false, raised := some .busError },
      trace := s.trace ++ [.line .dc s.cfg.dcCmdLevel .fail] })

/-- R63, R64, R101 to R120: a panel command row run to its end on a panel that accepts every write puts exactly its transaction on
the bus: the opcode byte at the command level, then its payload at the data level, each run of bytes after a DC write; with an
empty payload the opcode byte alone and no DC write to the data level. That a row is its SEND, spliced in its first step, and that
WRITE_BW_DATA streams in every request but CLEAR, is log 12 (DEDUCED). -/
def Obligations.PanelCommandTransaction : Prop :=
  ∀ (i : Instr) (k : PanelCmd) (bs : List Byte) (s : State) (r : Run) (more : List Ack),
    commandName i = some k → s.cur = some r → r.raised = none → r.prog[r.mpc]? = some i →
    s.cfg.wf = true → rowPayload s.cfg s.fb r.req i = bs →
    (bs = [] → s.acks = .ok :: .ok :: more →
      runSteps 2 s = .next { s with
        dev := if isTrigger k = true ∧ s.dev = .idle then .busy else s.dev,
        dc := some s.cfg.dcCmdLevel, dcFloats := false, acks := more, drawn := s.drawn + 2,
        cur := some { r with
          prog := r.prog.take r.mpc ++ [.cmd k] ++ r.prog.drop (r.mpc + 1),
          mpc := r.mpc + 1, sub := 0, framed := false },
        trace := s.trace ++ [.line .dc s.cfg.dcCmdLevel .ok,
          .byte s.cfg.dcCmdLevel (opcodeOf s.cfg.op k) .ok] })
    ∧ (bs ≠ [] → s.acks = List.replicate (3 + bs.length) .ok ++ more →
      runSteps (3 + bs.length) s = .next { s with
        dev := if isTrigger k = true ∧ s.dev = .idle then .busy else s.dev,
        dc := some (~~~s.cfg.dcCmdLevel), dcFloats := false, acks := more,
        drawn := s.drawn + (3 + bs.length),
        cur := some { r with
          prog := r.prog.take r.mpc ++ (.cmd k :: rowTail s.cfg s.fb r.req i) ++ r.prog.drop (r.mpc + 1),
          mpc := r.mpc + 2, sub := 0, framed := false },
        trace := s.trace ++ .line .dc s.cfg.dcCmdLevel .ok
          :: .byte s.cfg.dcCmdLevel (opcodeOf s.cfg.op k) .ok
          :: .line .dc (~~~s.cfg.dcCmdLevel) .ok
          :: bs.map (fun b => .byte (~~~s.cfg.dcCmdLevel) b .ok) })

/-! ### Expansions (spec/41_driver_sequences.md) -/

/-- R86, R88, R89, R101 to R114 (E4): on a healthy panel INIT's bus traffic is these fourteen transactions in this order, under
every configuration. -/
def Obligations.InitTransactions : Prop :=
  ∀ (c : Config) (fb : List Host.Cell),
    transactions c (busWords (healthyEvents c fb (expand c .init))) =
      [(c.op.swReset, []),
       (c.op.driverOutputCtrl, c.payload.driverOutputCtrl),
       (c.op.dataEntryMode, c.payload.dataEntryMode),
       (c.op.setRamXWindow, packX c 0 ++ packX c (c.wb - 1)),
       (c.op.setRamYWindow, packY c 0 ++ packY c (c.height - 1)),
       (c.op.setRamXCounter, packX c 0),
       (c.op.setRamYCounter, packY c 0),
       (c.op.borderWaveform, c.payload.borderWaveform),
       (c.op.tempSensorCtrl, c.payload.tempSensorCtrl),
       (c.op.boosterSoftStart, c.payload.boosterSoftStart),
       (c.op.gateVoltage, c.payload.gateVoltage),
       (c.op.sourceVoltage, c.payload.sourceVoltage),
       (c.op.writeVcom, c.payload.writeVcom),
       (c.op.writeLut, c.lutFull)]

/-- R90 to R93, R98, R115, R116, R119: the transactions of the three UPDATE requests and of SLEEP (R96, R120). -/
def Obligations.UpdateAndSleepTransactions : Prop :=
  ∀ (c : Config) (fb : List Host.Cell),
    transactions c (busWords (healthyEvents c fb (expand c .updateFull))) =
      [(c.op.displayUpdateCtrl2, [c.pbFull]), (c.op.masterActivate, [])]
    ∧ transactions c (busWords (healthyEvents c fb (expand c .updatePartial))) =
      [(c.op.displayUpdateCtrl2, [c.pbPartial]), (c.op.masterActivate, [])]
    ∧ transactions c (busWords (healthyEvents c fb (expand c .updateFast))) =
      [(c.op.displayUpdateCtrl2, [c.pbFast1]), (c.op.masterActivate, []),
       (c.op.tempControlWrite, c.tempOverride),
       (c.op.displayUpdateCtrl2, [c.pbFast2]), (c.op.masterActivate, []),
       (c.op.displayUpdateCtrl2, [c.pbFast3]), (c.op.masterActivate, [])]
    ∧ transactions c (busWords (healthyEvents c fb (expand c .sleep))) =
      [(c.op.deepSleep, c.payload.deepSleep)]

/-- R94, R95, R97, R117, R118: the transactions of WRITE_AND_UPDATE FULL, PARTIAL and FAST and of CLEAR: the full window, the counter at the
origin, exactly FB_LEN RAM bytes (the framebuffer in address order, or copies of v), the activation, and the red-plane clear only
for WRITE_AND_UPDATE and only when CLEAR_RED is true. -/
def Obligations.RamWriteTransactions : Prop :=
  ∀ (c : Config) (fb : List Host.Cell) (v : Byte),
    transactions c (busWords (healthyEvents c fb (expand c .writeAndUpdateFull))) =
      [(c.op.setRamXWindow, packX c 0 ++ packX c (c.wb - 1)),
       (c.op.setRamYWindow, packY c 0 ++ packY c (c.height - 1)),
       (c.op.setRamXCounter, packX c 0), (c.op.setRamYCounter, packY c 0),
       (c.op.writeBwData, (List.range c.fbLen).map (Memory.lookup fb)),
       (c.op.displayUpdateCtrl2, [c.pbFull]), (c.op.masterActivate, [])]
      ++ (if c.clearRed then
        [(c.op.setRamXCounter, packX c 0), (c.op.setRamYCounter, packY c 0),
         (c.op.writeRedData, List.replicate c.fbLen c.redFillValue)] else [])
    ∧ transactions c (busWords (healthyEvents c fb (expand c .writeAndUpdatePartial))) =
      [(c.op.setRamXWindow, packX c 0 ++ packX c (c.wb - 1)),
       (c.op.setRamYWindow, packY c 0 ++ packY c (c.height - 1)),
       (c.op.setRamXCounter, packX c 0), (c.op.setRamYCounter, packY c 0),
       (c.op.writeBwData, (List.range c.fbLen).map (Memory.lookup fb)),
       (c.op.displayUpdateCtrl2, [c.pbPartial]), (c.op.masterActivate, [])]
      ++ (if c.clearRed then
        [(c.op.setRamXCounter, packX c 0), (c.op.setRamYCounter, packY c 0),
         (c.op.writeRedData, List.replicate c.fbLen c.redFillValue)] else [])
    ∧ transactions c (busWords (healthyEvents c fb (expand c .writeAndUpdateFast))) =
      [(c.op.setRamXWindow, packX c 0 ++ packX c (c.wb - 1)),
       (c.op.setRamYWindow, packY c 0 ++ packY c (c.height - 1)),
       (c.op.setRamXCounter, packX c 0), (c.op.setRamYCounter, packY c 0),
       (c.op.writeBwData, (List.range c.fbLen).map (Memory.lookup fb)),
       (c.op.displayUpdateCtrl2, [c.pbFast1]), (c.op.masterActivate, []),
       (c.op.tempControlWrite, c.tempOverride),
       (c.op.displayUpdateCtrl2, [c.pbFast2]), (c.op.masterActivate, []),
       (c.op.displayUpdateCtrl2, [c.pbFast3]), (c.op.masterActivate, [])]
      ++ (if c.clearRed then
        [(c.op.setRamXCounter, packX c 0), (c.op.setRamYCounter, packY c 0),
         (c.op.writeRedData, List.replicate c.fbLen c.redFillValue)] else [])
    ∧ transactions c (busWords (healthyEvents c fb (expand c (.clear v)))) =
      [(c.op.setRamXWindow, packX c 0 ++ packX c (c.wb - 1)),
       (c.op.setRamYWindow, packY c 0 ++ packY c (c.height - 1)),
       (c.op.setRamXCounter, packX c 0), (c.op.setRamYCounter, packY c 0),
       (c.op.writeBwData, List.replicate c.fbLen v),
       (c.op.displayUpdateCtrl2, [c.pbFull]), (c.op.masterActivate, [])]

/-- R151: in every expansion each trigger command is followed by a WAIT. -/
def Obligations.EveryTriggerIsWaitedFor : Prop :=
  ∀ (c : Config) (i : Instr), triggersWaited (expand c i) = true

/-- R99 (and R114, R148): only INIT drives the reset line or loads a LUT; INIT loads LUT_FULL, and no expansion depends on
LUT_FAST. -/
def Obligations.ResetLineAndLutOnlyInInit : Prop :=
  ∀ (c : Config) (i : Instr),
    ((∃ v, Instr.line .rst v ∈ expand c i) → i = .init)
    ∧ (Instr.cmd .writeLut ∈ expand c i → i = .init)
    ∧ (∃ before after, expand c .init = before ++ sendOps .writeLut c.lutFull ++ after)
    ∧ ∀ lut : List Byte, expand { c with lutFast := lut } i = expand c i

/-- R97: the red plane is written only by WRITE_AND_UPDATE and only when CLEAR_RED is true; CLEAR never writes it. -/
def Obligations.RedPlaneOnlyInWriteAndUpdate : Prop :=
  ∀ (c : Config) (i : Instr), Instr.cmd .writeRedData ∈ expand c i →
    c.clearRed = true
    ∧ (i = .writeAndUpdateFull ∨ i = .writeAndUpdateFast ∨ i = .writeAndUpdatePartial)

/-- R21, R76 to R78, R83: an expansion holds only the eight micro-operations of the notation, each well formed. -/
def Obligations.ExpansionsAreWellFormed : Prop :=
  ∀ (c : Config) (i j : Instr), c.wf = true → j ∈ expand c i →
    j.isPrimitive = true ∧ j.wellFormed c = true

/-- R160, with every WAIT answered on its first poll (p = 1), under REF and under REF with the red-plane clear. -/
def Obligations.EventCountsUnderRef : Prop :=
  ∀ (fb : List Host.Cell) (v : Byte),
    (healthyEvents refConfig fb (expand refConfig .init)).length = 141 + 3
    ∧ (healthyEvents refConfig fb (expand refConfig .updateFull)).length = 6 + 1
    ∧ (healthyEvents refConfig fb (expand refConfig .updatePartial)).length = 6 + 1
    ∧ (healthyEvents refConfig fb (expand refConfig .updateFast)).length = 23 + 3
    ∧ (healthyEvents refConfig fb (expand refConfig .writeAndUpdateFull)).length = 4766 + 1
    ∧ (healthyEvents refConfig fb (expand refConfig (.clear v))).length = 4766 + 1
    ∧ (healthyEvents refConfig fb (redClearOps refConfig)).length = 4748 + 1
    ∧ (healthyEvents refConfig fb (expand refConfig .sleep)).length = 4

/-! ### Whole requests -/

/-- R67, R74, R85 to R97, R100: every legal request, accepted where its pre-check passes, on a panel that accepts every write and
reads not busy, runs to its end: the trace gains Accept, exactly the events of its expansion, and Respond(Ok), and `dev` ends
Idle, or Sleeping after SLEEP. The number of steps counts each SETDEV as a step of its own (log 2, DEDUCED). -/
def Obligations.HealthyRequestRunsToOk : Prop :=
  ∀ (i : Instr) (s : State) (rest : List Word) (moreA : List Ack) (moreP : List Bit),
    i.isLegalRequest = true → s.cur = none → s.reqs = encodeRequest i :: rest →
    (i = .init ∨ s.dev = .idle) → s.cfg.wf = true →
    s.acks = List.replicate (totalAcks (expand s.cfg i)) .ok ++ moreA →
    s.polls = List.replicate (totalPolls (expand s.cfg i)) (~~~s.cfg.busyActiveLevel) ++ moreP →
    ∃ t : State, runSteps (totalSteps (expand s.cfg i) + 2) s = .next t
      ∧ t.cfg = s.cfg ∧ t.fb = s.fb ∧ t.reqs = rest ∧ t.acks = moreA ∧ t.polls = moreP
      ∧ t.cur = none ∧ t.rsp = some .ok
      ∧ t.dev = (if i = .sleep then .sleeping else .idle)
      ∧ t.trace = s.trace ++ [.accept (encodeRequest i)]
          ++ healthyEvents s.cfg s.fb (expand s.cfg i) ++ [.respond .ok]

/-- R159 (what a step is: logs 1 and 2, DEDUCED): each step of a running request leaves less of its work, whatever the environment answers. -/
def Obligations.RunningStepDecreasesWork : Prop :=
  ∀ s t : State, Inv s → s.cur ≠ none → step s = .next t → workLeft t < workLeft s

/-- R159, R67: every running request responds after finitely many steps, at most its work, whatever the environment answers. The work
counts each SETDEV and the abort as steps of their own (logs 1 and 2, DEDUCED). -/
def Obligations.EveryRequestResponds : Prop :=
  ∀ s : State, Inv s → s.cur ≠ none →
    ∃ (n : Nat) (t : State) (r : Result), n ≤ workLeft s
      ∧ runSteps n s = .next t
      ∧ t.cur = none ∧ t.rsp = some r ∧ t.trace.getLast? = some (.respond r)

/-- R86, R129 (c), R152 (program P2): INIT on a panel whose busy line is stuck after the reset ends Timeout with `dev`
Uninitialized, and no command byte was sent. The WAIT_BOUND + 9 steps count the SETDEV (log 2, DEDUCED) and the abort (log 1, DEDUCED)
as steps of their own. -/
def Obligations.InitOnStuckPanelTimesOut : Prop :=
  ∀ (s : State) (rest : List Word) (moreA : List Ack) (moreP : List Bit), s.cur = none →
    s.reqs = 0x1000#16 :: rest → s.acks = .ok :: .ok :: .ok :: moreA → 1 ≤ s.cfg.waitBound →
    s.polls = List.replicate s.cfg.waitBound s.cfg.busyActiveLevel ++ moreP →
    runSteps (s.cfg.waitBound + 9) s = .next { s with
      reqs := rest, acks := moreA, polls := moreP, drawn := s.drawn + (s.cfg.waitBound + 3),
      dev := .uninitialized, rst := some 1#1, rstFloats := false, cur := none, rsp := some .timeout,
      trace := s.trace ++ [.accept 0x1000#16, .line .rst 1#1 .ok, .delay .t1, .line .rst 0#1 .ok,
          .delay .t2, .line .rst 1#1 .ok, .delay .t3]
        ++ List.replicate s.cfg.waitBound (.poll s.cfg.busyActiveLevel) ++ [.respond .timeout] }
end

