-- ==== Sys2Proof/Laws/Decode.lean ====
section
/-! SUPPORT. The request decoder by the fields of its word (R57), and the search for a panel command by its opcode byte. -/

namespace Sys2Proof

/-- A word is its four fields. -/
theorem toNat_fields (w : Word) : w.toNat = (opcField w).toNat * 4096 + (rsvField w).toNat * 1024 + (profField w).toNat * 256 + (valueField w).toNat := by
  have := w.isLt
  simp only [opcField, rsvField, profField, valueField, BitVec.extractLsb'_toNat, Nat.shiftRight_eq_div_pow]
  omega

/-- The ten low bits are zero exactly when PROF and VALUE are. -/
theorem low_zero (w : Word) : w.extractLsb' 0 10 = 0#10 ↔ profField w = 0#2 ∧ valueField w = 0#8 := by
  simp only [← BitVec.toNat_inj, profField, valueField, BitVec.extractLsb'_toNat, Nat.shiftRight_eq_div_pow, BitVec.toNat_ofNat]
  omega

/-- The decoder by field (R58 to R62). -/
theorem decodeRequest_eq (w : Word) : decodeRequest w =
   if rsvField w ≠ 0#2 then .illegal w
   else if opcField w = 1#4 then (if profField w = 0#2 ∧ valueField w = 0#8 then .init else .illegal w)
   else if opcField w = 2#4 then decodeProfile w .writeAndUpdateFull .writeAndUpdateFast .writeAndUpdatePartial
   else if opcField w = 3#4 then decodeProfile w .updateFull .updateFast .updatePartial
   else if opcField w = 4#4 then (if profField w = 0#2 then .clear (valueField w) else .illegal w)
   else if opcField w = 5#4 then (if profField w = 0#2 ∧ valueField w = 0#8 then .sleep else .illegal w)
   else .illegal w := by
  simp only [← low_zero]; rfl

/-- The values of OPC. -/
theorem opc_cases (o : BitVec 4) : o = 0#4 ∨ o = 1#4 ∨ o = 2#4 ∨ o = 3#4 ∨ o = 4#4 ∨ o = 5#4 ∨ 6#4 ≤ o := by
  revert o; decide

/-- The values of PROF. -/
theorem prof_cases (o : BitVec 2) : o = 0#2 ∨ o = 1#2 ∨ o = 2#2 ∨ o = 3#2 := by
  revert o; decide

/-- The fields of the word of CLEAR v. -/
theorem clear_fields : ∀ (v : Byte), rsvField (0x40#8 ++ v) = 0#2 ∧ opcField (0x40#8 ++ v) = 4#4 ∧ profField (0x40#8 ++ v) = 0#2 ∧ valueField (0x40#8 ++ v) = v := by
  decide

/-- With distinct opcodes a command is found by its own byte. -/
theorem find_opcode (o : Opcodes) (h : opcodesDistinct o = true) (c : PanelCmd) : commandOf o (opcodeOf o c) = some c := by
  have hn : (panelCmds.map (opcodeOf o)).Nodup := by simpa [opcodesDistinct] using h
  have hmem : c ∈ panelCmds := by cases c <;> decide
  unfold commandOf
  generalize panelCmds = l at hn hmem
  induction l with
  | nil => cases hmem
  | cons a l ih =>
    simp at hn hmem ⊢
    rcases hmem with rfl | hm
    · simp
    · by_cases hac : opcodeOf o a = opcodeOf o c
      · exact absurd hac.symm (hn.1 c hm)
      · simp [hac]; simpa using ih hn.2 hm

end Sys2Proof
end

