-- ==== Sys2Proof/Laws/Expand.lean ====
section
/-! SUPPORT. What the expansions hold, where their SETDEVs stand, where their lifecycle moves lead, and how their transactions and event counts add up. -/

namespace Sys2Proof.Machine

/-- The members of SEND (R84). -/
theorem mem_sendOps {c bs i} : i ∈ sendOps c bs ↔ i = .cmd c ∨ (bs ≠ [] ∧ i = .data bs) := by
  unfold sendOps; cases bs <;> simp

/-- An expansion holds only the eight micro-operations of the notation (R21). -/
theorem expand_prim {c i j} (h : j ∈ expand c i) : j.isPrimitive = true := by
  have hs : ∀ k bs, ∀ x ∈ sendOps k bs, x.isPrimitive = true := by
    intro k bs x hx; rw [mem_sendOps] at hx; rcases hx with rfl | ⟨_, rfl⟩ <;> rfl
  have hw : ∀ x ∈ setWindowOps c, x.isPrimitive = true := by
    intro x hx; simp only [setWindowOps, List.mem_append] at hx; rcases hx with hx | hx <;> exact hs _ _ _ hx
  have hr : ∀ x ∈ resetCounterOps c, x.isPrimitive = true := by
    intro x hx; simp only [resetCounterOps, List.mem_append] at hx; rcases hx with hx | hx <;> exact hs _ _ _ hx
  have ha : ∀ pb, ∀ x ∈ activateOps pb, x.isPrimitive = true := by
    intro pb x hx; simp only [activateOps, List.mem_append] at hx; rcases hx with hx | hx
    · exact hs _ _ _ hx
    · simp at hx; rcases hx with rfl | rfl <;> rfl
  have hu : ∀ p, ∀ x ∈ updOps c p, x.isPrimitive = true := by
    intro p x hx; cases p <;> simp only [updOps, List.mem_append] at hx
    · exact ha _ _ hx
    · rcases hx with ((hx | hx) | hx) | hx
      · exact ha _ _ hx
      · exact hs _ _ _ hx
      · exact ha _ _ hx
      · exact ha _ _ hx
    · exact ha _ _ hx
  have hwau : ∀ p, ∀ x ∈ writeAndUpdateOps c p, x.isPrimitive = true := by
    intro p x hx; simp only [writeAndUpdateOps, List.mem_append] at hx
    rcases hx with (((hx | hx) | hx) | hx) | hx
    · exact hw _ hx
    · exact hr _ hx
    · simp at hx; rcases hx with rfl | rfl <;> rfl
    · exact hu _ _ hx
    · split at hx
      · simp only [redClearOps, List.mem_append] at hx; rcases hx with hx | hx
        · exact hr _ hx
        · simp at hx; rcases hx with rfl | rfl | rfl <;> rfl
      · simp at hx
  cases i <;> simp only [expand, List.not_mem_nil] at h
  case init =>
    simp only [initOps, List.mem_append] at h
    simp only [or_assoc] at h
    rcases h with h | h | h | h | h | h | h | h | h | h | h | h | h | h | h
    · simp at h; subst h; rfl
    · simp [hwResetOps] at h; rcases h with rfl | rfl | rfl | rfl | rfl | rfl <;> rfl
    · simp at h; rcases h with rfl | rfl | rfl <;> rfl
    · exact hs _ _ _ h
    · exact hs _ _ _ h
    · exact hw _ h
    · exact hr _ h
    all_goals first | exact hs _ _ _ h | (simp at h; rcases h with rfl | rfl <;> rfl)
  case sleep => 
    simp only [sleepOps, List.mem_append] at h; rcases h with h | h
    · exact hs _ _ _ h
    · simp at h; subst h; rfl
  case clear v => 
    simp only [clearOps, List.mem_append] at h
    rcases h with ((hx | hx) | hx) | hx
    · exact hw _ hx
    · exact hr _ hx
    · simp at hx; rcases hx with rfl | rfl <;> rfl
    · exact hu _ _ hx
  all_goals first | exact hwau _ _ h | exact hu _ _ h

/-- The first of what is left of a program. -/
theorem drop_cons {α} {l : List α} {k a} (h : l[k]? = some a) : l.drop k = a :: l.drop (k+1) := by
  obtain ⟨hk, e⟩ := List.getElem?_eq_some_iff.1 h
  rw [← e]; exact List.drop_eq_getElem_cons hk

/-- The spliced micro-operations stand where the macro stood. -/
theorem fetch_splice {r : Run} {ops : List Instr} {k i} (hl : r.mpc ≤ r.prog.length) (h : ops[k]? = some i) : (r.prog.take r.mpc ++ ops ++ r.prog.drop (r.mpc + 1))[r.mpc + k]? = some i := by
  have hk := (List.getElem?_eq_some_iff.1 h).1
  rw [List.append_assoc, List.getElem?_append_right (by simp), List.getElem?_append_left (by simp; omega)]
  simp [Nat.min_eq_left hl, h]

/-! ### Lifecycle -/

/-- Of two parts. -/
theorem devAfterOps_append (d a b) : devAfterOps d (a ++ b) = devAfterOps (devAfterOps d a) b := by
  simp [devAfterOps, List.foldl_append]

/-- Of one more micro-operation. -/
theorem devAfterOps_cons (d i b) : devAfterOps d (i :: b) = devAfterOps (devAfterOp d i) b := rfl

/-- Of none. -/
theorem devAfterOps_nil (d) : devAfterOps d [] = d := rfl

/-- Of SEND. -/
theorem devAfterOps_send (d c bs) : devAfterOps d (sendOps c bs) = devAfterCommand c d := by
  unfold sendOps; cases bs <;> rfl

/-- Of ACTIVATE (R90). -/
theorem devAfterOps_activate (d pb) (h : d = .idle ∨ d = .busy) : devAfterOps d (activateOps pb) = .idle := by
  rcases h with rfl | rfl <;> simp [activateOps, devAfterOps_append, devAfterOps_send] <;> rfl

/-- Of UPD (R91 to R93). -/
theorem devAfterOps_upd (d c p) (h : d = .idle ∨ d = .busy) : devAfterOps d (updOps c p) = .idle := by
  cases p <;> simp [updOps, devAfterOps_append, devAfterOps_activate _ _ h, devAfterOps_send, devAfterOps_activate, devAfterCommand, isTrigger]

/-- Of SET_WINDOW. -/
theorem devAfterOps_window (d c) : devAfterOps d (setWindowOps c) = d := by
  simp [setWindowOps, devAfterOps_append, devAfterOps_send, devAfterCommand, isTrigger]

/-- Of RESET_COUNTER. -/
theorem devAfterOps_counter (d c) : devAfterOps d (resetCounterOps c) = d := by
  simp [resetCounterOps, devAfterOps_append, devAfterOps_send, devAfterCommand, isTrigger]

/-- Of a whole expansion. -/
theorem expand_final (c i d) (hl : i.isLegalRequest = true) (h : i = .init ∨ d = .idle ∨ d = .busy) : 
    devAfterOps d (expand c i) = if i = .sleep then .sleeping else .idle := by
  have upd : ∀ p d, (d = .idle ∨ d = .busy) → devAfterOps d (updOps c p) = .idle := fun p d h => devAfterOps_upd d c p h
  cases i <;> simp [Instr.isLegalRequest, Instr.isRequest] at hl <;> simp at h ⊢
  case init => 
    simp only [expand, initOps, devAfterOps_append, devAfterOps_send, devAfterOps_window, devAfterOps_counter]
    simp [devAfterOps, devAfterOp, hwResetOps, devAfterWait, devAfterCommand, isTrigger]
  case sleep =>
    rcases h with rfl | rfl <;> simp [expand, sleepOps, devAfterOps_append] <;> rfl
  case updateFull => exact upd .full _ h
  case updateFast => exact upd .fast _ h
  case updatePartial => exact upd .part _ h
  all_goals
    have red : devAfterOps .idle (redClearOps c) = .idle := by
      simp [redClearOps, devAfterOps_append, devAfterOps_counter]; rfl
    have bw : ∀ j, (∃ n, j = .stream n) ∨ (∃ v n, j = .fill v n) → devAfterOps d [.cmd .writeBwData, j] = .busy := by
      intro j hj
      rcases hj with ⟨n, rfl⟩ | ⟨v, n, rfl⟩ <;> rcases h with rfl | rfl <;> rfl
  case clear v =>
    simp only [expand, clearOps, devAfterOps_append, devAfterOps_window, devAfterOps_counter]
    rw [bw _ (Or.inr ⟨v, _, rfl⟩), upd _ _ (Or.inr rfl)]
  all_goals
    simp only [expand, writeAndUpdateOps, devAfterOps_append, devAfterOps_window, devAfterOps_counter]
    rw [bw _ (Or.inl ⟨_, rfl⟩), upd _ _ (Or.inr rfl)]
    split
    · exact red
    · rfl

/-- The final state of a request. -/
theorem finalDev_eq (i : Instr) : finalDev i = if i = .sleep then .sleeping else .idle := by
  cases i <;> rfl

/-- No request ends Busy. -/
theorem not_busy_final {i} : finalDev i ≠ .busy := by cases i <;> simp [finalDev]

/-! ### Where SETDEV stands -/

/-- A program without SETDEV. -/
def noSetdev (ops : List Instr) : Prop := ∀ d, Instr.setdev d ∉ ops

/-- Of two parts. -/
theorem noSetdev_append {a b} : noSetdev (a ++ b) ↔ noSetdev a ∧ noSetdev b := by
  simp [noSetdev, forall_and]

/-- SEND has none. -/
theorem noSetdev_send {c bs} : noSetdev (sendOps c bs) := by
  intro d; simp [mem_sendOps]

/-- SET_WINDOW has none. -/
theorem noSetdev_window {c} : noSetdev (setWindowOps c) := by simp [setWindowOps, noSetdev_append, noSetdev_send]

/-- RESET_COUNTER has none. -/
theorem noSetdev_counter {c} : noSetdev (resetCounterOps c) := by simp [resetCounterOps, noSetdev_append, noSetdev_send]

/-- UPD has none. -/
theorem noSetdev_upd {c p} : noSetdev (updOps c p) := by
  cases p <;> intro d <;> simp [updOps, activateOps, mem_sendOps]

/-- WRITE_AND_UPDATE has none. -/
theorem noSetdev_wau {c p} : noSetdev (writeAndUpdateOps c p) := by
  simp only [writeAndUpdateOps, noSetdev_append, noSetdev_window, noSetdev_counter, noSetdev_upd]
  split <;> simp [redClearOps, noSetdev_append, noSetdev_counter] <;> simp [noSetdev]

/-- INIT has a SETDEV first and last, SLEEP one last, the others none. -/
theorem expand_shape (c i) (hl : i.isLegalRequest = true) :
    if i = .init then ∃ mid, expand c i = .setdev .uninitialized :: mid ++ [.setdev .idle] ∧ noSetdev mid
    else if i = .sleep then ∃ mid, expand c i = mid ++ [.setdev .sleeping] ∧ noSetdev mid ∧ Instr.wait ∉ mid
    else noSetdev (expand c i) := by
  cases i <;> simp [Instr.isLegalRequest, Instr.isRequest] at hl <;> simp
  case init =>
    refine ⟨hwResetOps ++ [.wait, .cmd .swReset, .wait]
    ++ sendOps .driverOutputCtrl c.payload.driverOutputCtrl
    ++ sendOps .dataEntryMode c.payload.dataEntryMode
    ++ setWindowOps c ++ resetCounterOps c
    ++ sendOps .borderWaveform c.payload.borderWaveform
    ++ sendOps .tempSensorCtrl c.payload.tempSensorCtrl
    ++ sendOps .boosterSoftStart c.payload.boosterSoftStart
    ++ sendOps .gateVoltage c.payload.gateVoltage
    ++ sendOps .sourceVoltage c.payload.sourceVoltage
    ++ sendOps .writeVcom c.payload.writeVcom
    ++ sendOps .writeLut c.lutFull ++ [.wait], by simp [expand, initOps], ?_⟩
    simp only [noSetdev_append, noSetdev_send, noSetdev_window, noSetdev_counter, and_true]
    simp [noSetdev, hwResetOps]
  case sleep => exact ⟨_, rfl, noSetdev_send, by simp [mem_sendOps]⟩
  case updateFull => exact noSetdev_upd (p := .full)
  case updateFast => exact noSetdev_upd (p := .fast)
  case updatePartial => exact noSetdev_upd (p := .part)
  case clear v => simp only [expand, clearOps, noSetdev_append, noSetdev_window, noSetdev_counter, noSetdev_upd]; simp [noSetdev]
  case writeAndUpdateFull => exact noSetdev_wau (p := .full)
  case writeAndUpdateFast => exact noSetdev_wau (p := .fast)
  case writeAndUpdatePartial => exact noSetdev_wau (p := .part)

/-- Where SETDEV stands in an expansion. -/
theorem expand_setdev {c i k d} (hl : i.isLegalRequest = true) (h : (expand c i)[k]? = some (.setdev d)) :
    (i = .init ∧ k = 0 ∧ d = .uninitialized) ∨ (k + 1 = (expand c i).length ) := by
  have sh := expand_shape c i hl
  have key : ∀ (mid : List Instr) (z : Instr) k, noSetdev mid → (mid ++ [z])[k]? = some (.setdev d) → k = mid.length := by
    intro mid z k hm h
    by_cases hk : k < mid.length
    · rw [List.getElem?_append_left hk] at h
      exact absurd (List.mem_of_getElem? h) (hm d)
    · have := (List.getElem?_eq_some_iff.1 h).1
      simp at this; omega
  split at sh
  · obtain ⟨mid, e, hm⟩ := sh
    rw [e] at h ⊢
    cases k with
    | zero => left; simp at h; exact ⟨‹_›, rfl, h.symm⟩
    | succ k => right; have := key mid _ k hm (by simpa using h); simp [this]
  · split at sh
    · obtain ⟨mid, e, hm, _⟩ := sh
      rw [e] at h ⊢
      right; rw [key mid _ k hm h]; simp
    · exact absurd (List.mem_of_getElem? h) (sh d)

/-- INIT starts with SETDEV(Uninitialized) (R86). -/
theorem expand_first {c i} (h : i = .init) : (expand c i)[0]? = some (.setdev .uninitialized) := by
  subst h; simp [expand, initOps]

/-! ### Transactions -/

/-- The two DC levels differ. -/
theorem dc_ne (c : Config) : ~~~c.dcCmdLevel ≠ c.dcCmdLevel := by
  generalize c.dcCmdLevel = b; revert b; decide

/-- One bus word of a transaction reader (R65). -/
def txStep (c : Config) (acc : List (Byte × List Byte)) (w : Bit × Byte) : List (Byte × List Byte) :=
  if w.1 = c.dcCmdLevel then (w.2, []) :: acc
    else match acc with
      | (op, ps) :: rest => (op, ps ++ [w.2]) :: rest
      | [] => []

/-- The transactions of a program on a healthy panel, latest first, after those of `acc`. -/
def tx (c : Config) (fb : List Host.Cell) (ops : List Instr) (acc : List (Byte × List Byte)) : List (Byte × List Byte) :=
  (busWords (healthyEvents c fb ops)).foldl (txStep c) acc

/-- The transactions of a program. -/
theorem transactions_eq (c fb ops) : transactions c (busWords (healthyEvents c fb ops)) = (tx c fb ops []).reverse := rfl

/-- Of two parts. -/
theorem tx_append (c fb a b acc) : tx c fb (a ++ b) acc = tx c fb b (tx c fb a acc) := by
  simp [tx, healthyEvents, busWords, List.filterMap_append, List.foldl_append]

/-- A payload extends the open transaction. -/
theorem tx_payload (c : Config) (bs : List Byte) (op ps acc) : (busWords (bs.map (fun b => Event.byte (dcDataLevel c) b .ok))).foldl (txStep c) ((op, ps) :: acc) = (op, ps ++ bs) :: acc := by
  induction bs generalizing ps with
  | nil => simp [busWords]
  | cons b bs ih => 
    have := ih (ps ++ [b])
    simp only [busWords, List.map_cons, List.filterMap_cons, List.foldl_cons] at this ⊢
    simp only [txStep, dcDataLevel, dc_ne, if_false] at this ⊢
    simpa [busWords] using this

/-- CMD opens one. -/
theorem tx_cmd (c fb k acc) : tx c fb [.cmd k] acc = (opcodeOf c.op k, []) :: acc := by
  simp [tx, healthyEvents, opEvents, busWords, txStep]

/-- DATA, FILL and STREAM extend it. -/
theorem tx_data (c fb i bs op acc) (hb : opEvents c fb i = .line .dc (dcDataLevel c) .ok :: bs.map (fun b => .byte (dcDataLevel c) b .ok)) : tx c fb [i] ((op, []) :: acc) = (op, bs) :: acc := by
  have := tx_payload c bs op [] acc
  simp only [tx, healthyEvents, List.flatMap_cons, List.flatMap_nil, List.append_nil, hb]
  simpa [busWords] using this

/-- SEND is one. -/
theorem tx_send (c fb k bs acc) : tx c fb (sendOps k bs) acc = (opcodeOf c.op k, bs) :: acc := by
  unfold sendOps
  split
  · rename_i h; simp at h; subst h; exact tx_cmd _ _ _ _
  · rw [show [Instr.cmd k, .data bs] = [.cmd k] ++ [.data bs] from rfl, tx_append, tx_cmd, tx_data _ _ _ bs _ _ rfl]

/-- Lines, delays, polls and SETDEV belong to none. -/
theorem tx_none (c fb ops acc) (h : ∀ i ∈ ops, i.isPrimitive = true ∧ opAcks i ≤ 1 ∧ (∀ bs, i ≠ .data bs) ∧ (∀ v n, i ≠ .fill v n) ∧ (∀ n, i ≠ .stream n)) : tx c fb ops acc = acc := by
  have : busWords (healthyEvents c fb ops) = [] := by
    induction ops with
    | nil => rfl
    | cons i ops ih =>
      have h1 := h i (by simp)
      have h2 := ih (fun j hj => h j (by simp [hj]))
      simp only [healthyEvents, List.flatMap_cons, busWords, List.filterMap_append] at h2 ⊢
      rw [h2]
      cases i <;> simp [Instr.isPrimitive, opAcks] at h1 <;> simp [opEvents]
  simp [tx, this]

/-! ### Event counts -/

/-- Of two parts. -/
theorem len_append (c fb a b) : (healthyEvents c fb (a ++ b)).length = (healthyEvents c fb a).length + (healthyEvents c fb b).length := by simp [healthyEvents]

/-- Of one more micro-operation. -/
theorem len_cons (c fb i a) : (healthyEvents c fb (i :: a)).length = (opEvents c fb i).length + (healthyEvents c fb a).length := by simp [healthyEvents]

/-- Of none. -/
theorem len_nil (c fb) : (healthyEvents c fb []).length = 0 := rfl

/-- Of SEND. -/
theorem len_send (c fb k bs) : (healthyEvents c fb (sendOps k bs)).length = 2 + if bs = [] then 0 else 1 + bs.length := by
  unfold sendOps; cases bs <;> simp [healthyEvents, opEvents]; omega

end Sys2Proof.Machine
end

