-- ==== Sys2Proof/Laws/Framebuffer.lean ====
section
/-! SUPPORT. The layout contract: valid coordinates name bytes inside the framebuffer and masks of one bit. -/

namespace Sys2Proof.Machine

/-- What a well-formed configuration says of the geometry (R9). -/
theorem wf_dims {c : Config} (h : c.wf = true) : c.width = 8 * c.wb ∧ 1 ≤ c.wb ∧ 1 ≤ c.height := by
  simp [Config.wf] at h; unfold Config.wb; omega

/-- Validity as a proposition. -/
theorem validCoord_iff {c x y r} : validCoord c x y r = true ↔ x < logicalWidth c r ∧ y < logicalHeight c r := by
  simp [validCoord]

/-- A valid coordinate has its native pixel on the panel (R42). -/
theorem nativeCoord_bounds {c x y r} (h : validCoord c x y r = true) : (nativeCoord c x y r).1 < c.width ∧ (nativeCoord c x y r).2 < c.height := by
  rw [validCoord_iff] at h
  cases r <;> simp only [logicalWidth, logicalHeight, nativeCoord] at h ⊢ <;> omega

/-- The byte of a native pixel is inside the framebuffer (R41). -/
theorem pixelByte_lt {c : Config} {px py} (hw : c.wf = true) (hx : px < c.width) (hy : py < c.height) : pixelByte c px py < c.fbLen := by
  obtain ⟨h1, h2, h3⟩ := wf_dims hw
  unfold pixelByte Config.fbLen
  have : px / 8 < c.wb := by omega
  calc py * c.wb + px / 8 < py * c.wb + c.wb := by omega
    _ = (py + 1) * c.wb := by ring
    _ ≤ c.height * c.wb := Nat.mul_le_mul_right _ hy
    _ = c.wb * c.height := Nat.mul_comm _ _

/-- The mask of column `m` of a byte is one bit (R41). -/
theorem mask_eq : ∀ m, m < 8 → (0x80#8 >>> m) = 1#8 <<< (7 - m) := by decide

/-- Two columns of a byte have different masks. -/
theorem mask_inj : ∀ m < 8, ∀ n < 8, (0x80#8 >>> m) = (0x80#8 >>> n) → m = n := by decide

end Sys2Proof.Machine
end

