-- ==== Sys2Proof/Laws/Memory.lean ====
section
/-! SUPPORT. The framebuffer laws: a read after a write to the same place gives the byte written, a write leaves every other byte alone, and every memory operation keeps the canonical form. -/

namespace Sys2Proof.Machine

/-- A list that rises from a higher bound rises from a lower one. -/
theorem rising_mono {l lo lo'} (h : lo' ≤ lo) (hr : Memory.rising lo l = true) : Memory.rising lo' l = true := by
  cases l with
  | nil => rfl
  | cons a l => simp [Memory.rising] at hr ⊢; exact ⟨⟨by omega, hr.1.2⟩, hr.2⟩

/-- Below its first address a canonical list reads as unlisted. -/
theorem lookup_below {l lo a} (hr : Memory.rising lo l = true) (h : a < lo) : Memory.lookup l a = unlistedByte := by
  induction l generalizing lo with
  | nil => rfl
  | cons k l ih =>
    simp [Memory.rising] at hr
    simp [Memory.lookup, show k.1 ≠ a by omega]
    exact ih hr.2 (by omega)

/-- A write keeps the addresses rising and lists no byte an unlisted address reads as. -/
theorem put_rising {l lo a b} (hr : Memory.rising lo l = true) (h : lo ≤ a) : Memory.rising lo (Memory.put l a b) = true := by
  induction l generalizing lo with
  | nil => simp [Memory.put]; split <;> simp [Memory.rising, *]
  | cons k l ih =>
    obtain ⟨k, c⟩ := k
    simp [Memory.rising] at hr
    unfold Memory.put
    split
    · rename_i h1
      have : a + 1 ≤ k := h1
      split <;> simp [*, Memory.rising]
    · split
      · subst a
        split
        · exact rising_mono (by omega) hr.2
        · simp [Memory.rising, *]
      · simp [Memory.rising, hr]; exact ih hr.2 (by omega)

/-- What a byte reads as after a write. -/
theorem lookup_put {l lo a b a'} (hr : Memory.rising lo l = true) : Memory.lookup (Memory.put l a b) a' = if a' = a then b else Memory.lookup l a' := by
  induction l generalizing lo with
  | nil => 
    simp only [Memory.put]; split <;> simp [Memory.lookup, *, eq_comm]
  | cons k l ih =>
    obtain ⟨k, c⟩ := k
    simp [Memory.rising] at hr
    unfold Memory.put
    split
    · split
      · split
        · subst a'; rename_i h1 h2; rw [h2]; simp [Memory.lookup, show k ≠ a by omega]; exact lookup_below hr.2 (by omega)
        · rfl
      · simp [Memory.lookup]; simp only [eq_comm (a := a')]
    · split
      · subst a
        split
        · split
          · subst a'; rename_i h1 h2; rw [h2]; exact lookup_below hr.2 (by omega)
          · simp [Memory.lookup, show k ≠ a' by omega]
        · simp only [Memory.lookup, eq_comm (a := a')]; split <;> rfl
      · simp only [Memory.lookup, ih hr.2]; split <;> simp [*]; omega

/-- A write lists nothing but its own byte and what was listed. -/
theorem put_mem {l a b x} (h : x ∈ Memory.put l a b) : x = (a, b) ∨ x ∈ l := by
  induction l with
  | nil => simp only [Memory.put] at h; split at h <;> simp at h; exact Or.inl h
  | cons k l ih =>
    obtain ⟨k, c⟩ := k
    unfold Memory.put at h
    split at h
    · split at h <;> simp at h ⊢ <;> tauto
    · split at h
      · split at h <;> simp at h ⊢ <;> tauto
      · simp at h ⊢; rcases h with h | h
        · tauto
        · have := ih h; tauto

/-- A write inside the framebuffer keeps the canonical form. -/
theorem put_wf {n l a b} (h : Memory.wf n l = true) (ha : a < n) : Memory.wf n (Memory.put l a b) = true := by
  simp only [Memory.wf, Bool.and_eq_true, List.all_eq_true, decide_eq_true_eq] at h ⊢
  refine ⟨put_rising h.1 (Nat.zero_le _), ?_⟩
  intro x hx; rcases put_mem hx with rfl | hx
  · exact ha
  · exact h.2 x hx

/-- The framebuffer at construction is in canonical form. -/
theorem reset_memory_wf : Memory.wf State.reset.cfg.fbLen State.reset.fb = true := rfl

/-- A read inside the framebuffer after a write inside it. -/
theorem read_put {n m a b a'} (h : Memory.wf n m = true) (ha : a < n) :
    Memory.read n (Memory.put m a b) a' = if a' = a then some b else Memory.read n m a' := by
  have hr : Memory.rising 0 m = true := by simp [Memory.wf] at h; exact h.1
  unfold Memory.read
  rw [lookup_put hr]
  by_cases hk : a' = a <;> simp [hk, ha]

end Sys2Proof.Machine
end

