-- ==== Sys2Proof/Laws/State.lean ====
section
/-! SUPPORT. One lemma per field per update of the state, so that no proof unfolds a record update. -/

namespace Sys2Proof.Machine

/-! ### emit -/

@[simp] theorem emit_cfg (e : Event) (s : State) : (emit e s).cfg = s.cfg := rfl
@[simp] theorem emit_dev (e : Event) (s : State) : (emit e s).dev = s.dev := rfl
@[simp] theorem emit_rst (e : Event) (s : State) : (emit e s).rst = s.rst := rfl
@[simp] theorem emit_dc (e : Event) (s : State) : (emit e s).dc = s.dc := rfl
@[simp] theorem emit_rstFloats (e : Event) (s : State) : (emit e s).rstFloats = s.rstFloats := rfl
@[simp] theorem emit_dcFloats (e : Event) (s : State) : (emit e s).dcFloats = s.dcFloats := rfl
@[simp] theorem emit_cur (e : Event) (s : State) : (emit e s).cur = s.cur := rfl
@[simp] theorem emit_rsp (e : Event) (s : State) : (emit e s).rsp = s.rsp := rfl
@[simp] theorem emit_trace (e : Event) (s : State) : (emit e s).trace = s.trace ++ [e] := rfl
@[simp] theorem emit_fb (e : Event) (s : State) : (emit e s).fb = s.fb := rfl
@[simp] theorem emit_reqs (e : Event) (s : State) : (emit e s).reqs = s.reqs := rfl
@[simp] theorem emit_acks (e : Event) (s : State) : (emit e s).acks = s.acks := rfl
@[simp] theorem emit_polls (e : Event) (s : State) : (emit e s).polls = s.polls := rfl
@[simp] theorem emit_drawn (e : Event) (s : State) : (emit e s).drawn = s.drawn := rfl

/-! ### dropAck -/

@[simp] theorem dropAck_cfg (s : State) : (dropAck s).cfg = s.cfg := rfl
@[simp] theorem dropAck_dev (s : State) : (dropAck s).dev = s.dev := rfl
@[simp] theorem dropAck_rst (s : State) : (dropAck s).rst = s.rst := rfl
@[simp] theorem dropAck_dc (s : State) : (dropAck s).dc = s.dc := rfl
@[simp] theorem dropAck_rstFloats (s : State) : (dropAck s).rstFloats = s.rstFloats := rfl
@[simp] theorem dropAck_dcFloats (s : State) : (dropAck s).dcFloats = s.dcFloats := rfl
@[simp] theorem dropAck_cur (s : State) : (dropAck s).cur = s.cur := rfl
@[simp] theorem dropAck_rsp (s : State) : (dropAck s).rsp = s.rsp := rfl
@[simp] theorem dropAck_trace (s : State) : (dropAck s).trace = s.trace := rfl
@[simp] theorem dropAck_fb (s : State) : (dropAck s).fb = s.fb := rfl
@[simp] theorem dropAck_reqs (s : State) : (dropAck s).reqs = s.reqs := rfl
@[simp] theorem dropAck_acks (s : State) : (dropAck s).acks = s.acks.tail := rfl
@[simp] theorem dropAck_polls (s : State) : (dropAck s).polls = s.polls := rfl
@[simp] theorem dropAck_drawn (s : State) : (dropAck s).drawn = s.drawn + 1 := rfl

/-! ### dropLevel -/

@[simp] theorem dropLevel_cfg (s : State) : (dropLevel s).cfg = s.cfg := rfl
@[simp] theorem dropLevel_dev (s : State) : (dropLevel s).dev = s.dev := rfl
@[simp] theorem dropLevel_rst (s : State) : (dropLevel s).rst = s.rst := rfl
@[simp] theorem dropLevel_dc (s : State) : (dropLevel s).dc = s.dc := rfl
@[simp] theorem dropLevel_rstFloats (s : State) : (dropLevel s).rstFloats = s.rstFloats := rfl
@[simp] theorem dropLevel_dcFloats (s : State) : (dropLevel s).dcFloats = s.dcFloats := rfl
@[simp] theorem dropLevel_cur (s : State) : (dropLevel s).cur = s.cur := rfl
@[simp] theorem dropLevel_rsp (s : State) : (dropLevel s).rsp = s.rsp := rfl
@[simp] theorem dropLevel_trace (s : State) : (dropLevel s).trace = s.trace := rfl
@[simp] theorem dropLevel_fb (s : State) : (dropLevel s).fb = s.fb := rfl
@[simp] theorem dropLevel_reqs (s : State) : (dropLevel s).reqs = s.reqs := rfl
@[simp] theorem dropLevel_acks (s : State) : (dropLevel s).acks = s.acks := rfl
@[simp] theorem dropLevel_polls (s : State) : (dropLevel s).polls = s.polls.tail := rfl
@[simp] theorem dropLevel_drawn (s : State) : (dropLevel s).drawn = s.drawn + 1 := rfl

/-! ### mapRun -/

@[simp] theorem mapRun_cfg (f : Run → Run) (s : State) : (mapRun f s).cfg = s.cfg := rfl
@[simp] theorem mapRun_dev (f : Run → Run) (s : State) : (mapRun f s).dev = s.dev := rfl
@[simp] theorem mapRun_rst (f : Run → Run) (s : State) : (mapRun f s).rst = s.rst := rfl
@[simp] theorem mapRun_dc (f : Run → Run) (s : State) : (mapRun f s).dc = s.dc := rfl
@[simp] theorem mapRun_rstFloats (f : Run → Run) (s : State) : (mapRun f s).rstFloats = s.rstFloats := rfl
@[simp] theorem mapRun_dcFloats (f : Run → Run) (s : State) : (mapRun f s).dcFloats = s.dcFloats := rfl
@[simp] theorem mapRun_cur (f : Run → Run) (s : State) : (mapRun f s).cur = s.cur.map f := rfl
@[simp] theorem mapRun_rsp (f : Run → Run) (s : State) : (mapRun f s).rsp = s.rsp := rfl
@[simp] theorem mapRun_trace (f : Run → Run) (s : State) : (mapRun f s).trace = s.trace := rfl
@[simp] theorem mapRun_fb (f : Run → Run) (s : State) : (mapRun f s).fb = s.fb := rfl
@[simp] theorem mapRun_reqs (f : Run → Run) (s : State) : (mapRun f s).reqs = s.reqs := rfl
@[simp] theorem mapRun_acks (f : Run → Run) (s : State) : (mapRun f s).acks = s.acks := rfl
@[simp] theorem mapRun_polls (f : Run → Run) (s : State) : (mapRun f s).polls = s.polls := rfl
@[simp] theorem mapRun_drawn (f : Run → Run) (s : State) : (mapRun f s).drawn = s.drawn := rfl

/-! ### setDev -/

@[simp] theorem setDev_cfg (d : DeviceState) (s : State) : (setDev d s).cfg = s.cfg := rfl
@[simp] theorem setDev_dev (d : DeviceState) (s : State) : (setDev d s).dev = d := rfl
@[simp] theorem setDev_rst (d : DeviceState) (s : State) : (setDev d s).rst = s.rst := rfl
@[simp] theorem setDev_dc (d : DeviceState) (s : State) : (setDev d s).dc = s.dc := rfl
@[simp] theorem setDev_rstFloats (d : DeviceState) (s : State) : (setDev d s).rstFloats = s.rstFloats := rfl
@[simp] theorem setDev_dcFloats (d : DeviceState) (s : State) : (setDev d s).dcFloats = s.dcFloats := rfl
@[simp] theorem setDev_cur (d : DeviceState) (s : State) : (setDev d s).cur = s.cur := rfl
@[simp] theorem setDev_rsp (d : DeviceState) (s : State) : (setDev d s).rsp = s.rsp := rfl
@[simp] theorem setDev_trace (d : DeviceState) (s : State) : (setDev d s).trace = s.trace := rfl
@[simp] theorem setDev_fb (d : DeviceState) (s : State) : (setDev d s).fb = s.fb := rfl
@[simp] theorem setDev_reqs (d : DeviceState) (s : State) : (setDev d s).reqs = s.reqs := rfl
@[simp] theorem setDev_acks (d : DeviceState) (s : State) : (setDev d s).acks = s.acks := rfl
@[simp] theorem setDev_polls (d : DeviceState) (s : State) : (setDev d s).polls = s.polls := rfl
@[simp] theorem setDev_drawn (d : DeviceState) (s : State) : (setDev d s).drawn = s.drawn := rfl

/-! ### respond -/

@[simp] theorem respond_cfg (r : Result) (s : State) : (respond r s).cfg = s.cfg := rfl
@[simp] theorem respond_dev (r : Result) (s : State) : (respond r s).dev = s.dev := rfl
@[simp] theorem respond_rst (r : Result) (s : State) : (respond r s).rst = s.rst := rfl
@[simp] theorem respond_dc (r : Result) (s : State) : (respond r s).dc = s.dc := rfl
@[simp] theorem respond_rstFloats (r : Result) (s : State) : (respond r s).rstFloats = s.rstFloats := rfl
@[simp] theorem respond_dcFloats (r : Result) (s : State) : (respond r s).dcFloats = s.dcFloats := rfl
@[simp] theorem respond_cur (r : Result) (s : State) : (respond r s).cur = none := rfl
@[simp] theorem respond_rsp (r : Result) (s : State) : (respond r s).rsp = some r := rfl
@[simp] theorem respond_trace (r : Result) (s : State) : (respond r s).trace = s.trace ++ [.respond r] := rfl
@[simp] theorem respond_fb (r : Result) (s : State) : (respond r s).fb = s.fb := rfl
@[simp] theorem respond_reqs (r : Result) (s : State) : (respond r s).reqs = s.reqs := rfl
@[simp] theorem respond_acks (r : Result) (s : State) : (respond r s).acks = s.acks := rfl
@[simp] theorem respond_polls (r : Result) (s : State) : (respond r s).polls = s.polls := rfl
@[simp] theorem respond_drawn (r : Result) (s : State) : (respond r s).drawn = s.drawn := rfl

/-! ### finish -/

@[simp] theorem finish_cfg (s : State) : (finish s).cfg = s.cfg := rfl
@[simp] theorem finish_dev (s : State) : (finish s).dev = s.dev := rfl
@[simp] theorem finish_rst (s : State) : (finish s).rst = s.rst := rfl
@[simp] theorem finish_dc (s : State) : (finish s).dc = s.dc := rfl
@[simp] theorem finish_rstFloats (s : State) : (finish s).rstFloats = s.rstFloats := rfl
@[simp] theorem finish_dcFloats (s : State) : (finish s).dcFloats = s.dcFloats := rfl
@[simp] theorem finish_cur (s : State) : (finish s).cur = s.cur.map (fun r => { r with mpc := r.mpc + 1, sub := 0, framed := false }) := rfl
@[simp] theorem finish_rsp (s : State) : (finish s).rsp = s.rsp := rfl
@[simp] theorem finish_trace (s : State) : (finish s).trace = s.trace := rfl
@[simp] theorem finish_fb (s : State) : (finish s).fb = s.fb := rfl
@[simp] theorem finish_reqs (s : State) : (finish s).reqs = s.reqs := rfl
@[simp] theorem finish_acks (s : State) : (finish s).acks = s.acks := rfl
@[simp] theorem finish_polls (s : State) : (finish s).polls = s.polls := rfl
@[simp] theorem finish_drawn (s : State) : (finish s).drawn = s.drawn := rfl

/-! ### markFramed -/

@[simp] theorem markFramed_cfg (s : State) : (markFramed s).cfg = s.cfg := rfl
@[simp] theorem markFramed_dev (s : State) : (markFramed s).dev = s.dev := rfl
@[simp] theorem markFramed_rst (s : State) : (markFramed s).rst = s.rst := rfl
@[simp] theorem markFramed_dc (s : State) : (markFramed s).dc = s.dc := rfl
@[simp] theorem markFramed_rstFloats (s : State) : (markFramed s).rstFloats = s.rstFloats := rfl
@[simp] theorem markFramed_dcFloats (s : State) : (markFramed s).dcFloats = s.dcFloats := rfl
@[simp] theorem markFramed_cur (s : State) : (markFramed s).cur = s.cur.map (fun r => { r with framed := true }) := rfl
@[simp] theorem markFramed_rsp (s : State) : (markFramed s).rsp = s.rsp := rfl
@[simp] theorem markFramed_trace (s : State) : (markFramed s).trace = s.trace := rfl
@[simp] theorem markFramed_fb (s : State) : (markFramed s).fb = s.fb := rfl
@[simp] theorem markFramed_reqs (s : State) : (markFramed s).reqs = s.reqs := rfl
@[simp] theorem markFramed_acks (s : State) : (markFramed s).acks = s.acks := rfl
@[simp] theorem markFramed_polls (s : State) : (markFramed s).polls = s.polls := rfl
@[simp] theorem markFramed_drawn (s : State) : (markFramed s).drawn = s.drawn := rfl

/-! ### countOne -/

@[simp] theorem countOne_cfg (s : State) : (countOne s).cfg = s.cfg := rfl
@[simp] theorem countOne_dev (s : State) : (countOne s).dev = s.dev := rfl
@[simp] theorem countOne_rst (s : State) : (countOne s).rst = s.rst := rfl
@[simp] theorem countOne_dc (s : State) : (countOne s).dc = s.dc := rfl
@[simp] theorem countOne_rstFloats (s : State) : (countOne s).rstFloats = s.rstFloats := rfl
@[simp] theorem countOne_dcFloats (s : State) : (countOne s).dcFloats = s.dcFloats := rfl
@[simp] theorem countOne_cur (s : State) : (countOne s).cur = s.cur.map (fun r => { r with sub := r.sub + 1 }) := rfl
@[simp] theorem countOne_rsp (s : State) : (countOne s).rsp = s.rsp := rfl
@[simp] theorem countOne_trace (s : State) : (countOne s).trace = s.trace := rfl
@[simp] theorem countOne_fb (s : State) : (countOne s).fb = s.fb := rfl
@[simp] theorem countOne_reqs (s : State) : (countOne s).reqs = s.reqs := rfl
@[simp] theorem countOne_acks (s : State) : (countOne s).acks = s.acks := rfl
@[simp] theorem countOne_polls (s : State) : (countOne s).polls = s.polls := rfl
@[simp] theorem countOne_drawn (s : State) : (countOne s).drawn = s.drawn := rfl

/-! ### raise -/

@[simp] theorem raise_cfg (e : Failure) (s : State) : (raise e s).cfg = s.cfg := rfl
@[simp] theorem raise_dev (e : Failure) (s : State) : (raise e s).dev = s.dev := rfl
@[simp] theorem raise_rst (e : Failure) (s : State) : (raise e s).rst = s.rst := rfl
@[simp] theorem raise_dc (e : Failure) (s : State) : (raise e s).dc = s.dc := rfl
@[simp] theorem raise_rstFloats (e : Failure) (s : State) : (raise e s).rstFloats = s.rstFloats := rfl
@[simp] theorem raise_dcFloats (e : Failure) (s : State) : (raise e s).dcFloats = s.dcFloats := rfl
@[simp] theorem raise_cur (e : Failure) (s : State) : (raise e s).cur = s.cur.map (fun r => { r with raised := some e }) := rfl
@[simp] theorem raise_rsp (e : Failure) (s : State) : (raise e s).rsp = s.rsp := rfl
@[simp] theorem raise_trace (e : Failure) (s : State) : (raise e s).trace = s.trace := rfl
@[simp] theorem raise_fb (e : Failure) (s : State) : (raise e s).fb = s.fb := rfl
@[simp] theorem raise_reqs (e : Failure) (s : State) : (raise e s).reqs = s.reqs := rfl
@[simp] theorem raise_acks (e : Failure) (s : State) : (raise e s).acks = s.acks := rfl
@[simp] theorem raise_polls (e : Failure) (s : State) : (raise e s).polls = s.polls := rfl
@[simp] theorem raise_drawn (e : Failure) (s : State) : (raise e s).drawn = s.drawn := rfl

/-! ### splice -/

@[simp] theorem splice_cfg (ops : List Instr) (s : State) : (splice ops s).cfg = s.cfg := rfl
@[simp] theorem splice_dev (ops : List Instr) (s : State) : (splice ops s).dev = s.dev := rfl
@[simp] theorem splice_rst (ops : List Instr) (s : State) : (splice ops s).rst = s.rst := rfl
@[simp] theorem splice_dc (ops : List Instr) (s : State) : (splice ops s).dc = s.dc := rfl
@[simp] theorem splice_rstFloats (ops : List Instr) (s : State) : (splice ops s).rstFloats = s.rstFloats := rfl
@[simp] theorem splice_dcFloats (ops : List Instr) (s : State) : (splice ops s).dcFloats = s.dcFloats := rfl
@[simp] theorem splice_cur (ops : List Instr) (s : State) : (splice ops s).cur = s.cur.map (fun r => { r with prog := r.prog.take r.mpc ++ ops ++ r.prog.drop (r.mpc + 1), sub := 0, framed := false }) := rfl
@[simp] theorem splice_rsp (ops : List Instr) (s : State) : (splice ops s).rsp = s.rsp := rfl
@[simp] theorem splice_trace (ops : List Instr) (s : State) : (splice ops s).trace = s.trace := rfl
@[simp] theorem splice_fb (ops : List Instr) (s : State) : (splice ops s).fb = s.fb := rfl
@[simp] theorem splice_reqs (ops : List Instr) (s : State) : (splice ops s).reqs = s.reqs := rfl
@[simp] theorem splice_acks (ops : List Instr) (s : State) : (splice ops s).acks = s.acks := rfl
@[simp] theorem splice_polls (ops : List Instr) (s : State) : (splice ops s).polls = s.polls := rfl
@[simp] theorem splice_drawn (ops : List Instr) (s : State) : (splice ops s).drawn = s.drawn := rfl

/-! ### abort -/

@[simp] theorem abort_cfg (e : Failure) (s : State) : (abort e s).cfg = s.cfg := rfl
@[simp] theorem abort_dev (e : Failure) (s : State) : (abort e s).dev = devAfterFailure e s.dev := rfl
@[simp] theorem abort_rst (e : Failure) (s : State) : (abort e s).rst = s.rst := rfl
@[simp] theorem abort_dc (e : Failure) (s : State) : (abort e s).dc = s.dc := rfl
@[simp] theorem abort_rstFloats (e : Failure) (s : State) : (abort e s).rstFloats = s.rstFloats := rfl
@[simp] theorem abort_dcFloats (e : Failure) (s : State) : (abort e s).dcFloats = s.dcFloats := rfl
@[simp] theorem abort_cur (e : Failure) (s : State) : (abort e s).cur = none := rfl
@[simp] theorem abort_rsp (e : Failure) (s : State) : (abort e s).rsp = some (failureResult e) := rfl
@[simp] theorem abort_trace (e : Failure) (s : State) : (abort e s).trace = s.trace ++ [.respond (failureResult e)] := rfl
@[simp] theorem abort_fb (e : Failure) (s : State) : (abort e s).fb = s.fb := rfl
@[simp] theorem abort_reqs (e : Failure) (s : State) : (abort e s).reqs = s.reqs := rfl
@[simp] theorem abort_acks (e : Failure) (s : State) : (abort e s).acks = s.acks := rfl
@[simp] theorem abort_polls (e : Failure) (s : State) : (abort e s).polls = s.polls := rfl
@[simp] theorem abort_drawn (e : Failure) (s : State) : (abort e s).drawn = s.drawn := rfl

/-! ### complete -/

@[simp] theorem complete_cfg (s : State) : (complete s).cfg = s.cfg := rfl
@[simp] theorem complete_dev (s : State) : (complete s).dev = s.dev := rfl
@[simp] theorem complete_rst (s : State) : (complete s).rst = s.rst := rfl
@[simp] theorem complete_dc (s : State) : (complete s).dc = s.dc := rfl
@[simp] theorem complete_rstFloats (s : State) : (complete s).rstFloats = s.rstFloats := rfl
@[simp] theorem complete_dcFloats (s : State) : (complete s).dcFloats = s.dcFloats := rfl
@[simp] theorem complete_cur (s : State) : (complete s).cur = none := rfl
@[simp] theorem complete_rsp (s : State) : (complete s).rsp = some .ok := rfl
@[simp] theorem complete_trace (s : State) : (complete s).trace = s.trace ++ [.respond .ok] := rfl
@[simp] theorem complete_fb (s : State) : (complete s).fb = s.fb := rfl
@[simp] theorem complete_reqs (s : State) : (complete s).reqs = s.reqs := rfl
@[simp] theorem complete_acks (s : State) : (complete s).acks = s.acks := rfl
@[simp] theorem complete_polls (s : State) : (complete s).polls = s.polls := rfl
@[simp] theorem complete_drawn (s : State) : (complete s).drawn = s.drawn := rfl

/-! ### setLine_rst -/

@[simp] theorem setLine_rst_cfg (v : Bit) (s : State) : (setLine .rst v s).cfg = s.cfg := rfl
@[simp] theorem setLine_rst_dev (v : Bit) (s : State) : (setLine .rst v s).dev = s.dev := rfl
@[simp] theorem setLine_rst_rst (v : Bit) (s : State) : (setLine .rst v s).rst = some v := rfl
@[simp] theorem setLine_rst_dc (v : Bit) (s : State) : (setLine .rst v s).dc = s.dc := rfl
@[simp] theorem setLine_rst_rstFloats (v : Bit) (s : State) : (setLine .rst v s).rstFloats = false := rfl
@[simp] theorem setLine_rst_dcFloats (v : Bit) (s : State) : (setLine .rst v s).dcFloats = s.dcFloats := rfl
@[simp] theorem setLine_rst_cur (v : Bit) (s : State) : (setLine .rst v s).cur = s.cur := rfl
@[simp] theorem setLine_rst_rsp (v : Bit) (s : State) : (setLine .rst v s).rsp = s.rsp := rfl
@[simp] theorem setLine_rst_trace (v : Bit) (s : State) : (setLine .rst v s).trace = s.trace := rfl
@[simp] theorem setLine_rst_fb (v : Bit) (s : State) : (setLine .rst v s).fb = s.fb := rfl
@[simp] theorem setLine_rst_reqs (v : Bit) (s : State) : (setLine .rst v s).reqs = s.reqs := rfl
@[simp] theorem setLine_rst_acks (v : Bit) (s : State) : (setLine .rst v s).acks = s.acks := rfl
@[simp] theorem setLine_rst_polls (v : Bit) (s : State) : (setLine .rst v s).polls = s.polls := rfl
@[simp] theorem setLine_rst_drawn (v : Bit) (s : State) : (setLine .rst v s).drawn = s.drawn := rfl

/-! ### setLine_dc -/

@[simp] theorem setLine_dc_cfg (v : Bit) (s : State) : (setLine .dc v s).cfg = s.cfg := rfl
@[simp] theorem setLine_dc_dev (v : Bit) (s : State) : (setLine .dc v s).dev = s.dev := rfl
@[simp] theorem setLine_dc_rst (v : Bit) (s : State) : (setLine .dc v s).rst = s.rst := rfl
@[simp] theorem setLine_dc_dc (v : Bit) (s : State) : (setLine .dc v s).dc = some v := rfl
@[simp] theorem setLine_dc_rstFloats (v : Bit) (s : State) : (setLine .dc v s).rstFloats = s.rstFloats := rfl
@[simp] theorem setLine_dc_dcFloats (v : Bit) (s : State) : (setLine .dc v s).dcFloats = false := rfl
@[simp] theorem setLine_dc_cur (v : Bit) (s : State) : (setLine .dc v s).cur = s.cur := rfl
@[simp] theorem setLine_dc_rsp (v : Bit) (s : State) : (setLine .dc v s).rsp = s.rsp := rfl
@[simp] theorem setLine_dc_trace (v : Bit) (s : State) : (setLine .dc v s).trace = s.trace := rfl
@[simp] theorem setLine_dc_fb (v : Bit) (s : State) : (setLine .dc v s).fb = s.fb := rfl
@[simp] theorem setLine_dc_reqs (v : Bit) (s : State) : (setLine .dc v s).reqs = s.reqs := rfl
@[simp] theorem setLine_dc_acks (v : Bit) (s : State) : (setLine .dc v s).acks = s.acks := rfl
@[simp] theorem setLine_dc_polls (v : Bit) (s : State) : (setLine .dc v s).polls = s.polls := rfl
@[simp] theorem setLine_dc_drawn (v : Bit) (s : State) : (setLine .dc v s).drawn = s.drawn := rfl

/-! ### floatLine_rst -/

@[simp] theorem floatLine_rst_cfg (s : State) : (floatLine .rst s).cfg = s.cfg := rfl
@[simp] theorem floatLine_rst_dev (s : State) : (floatLine .rst s).dev = s.dev := rfl
@[simp] theorem floatLine_rst_rst (s : State) : (floatLine .rst s).rst = s.rst := rfl
@[simp] theorem floatLine_rst_dc (s : State) : (floatLine .rst s).dc = s.dc := rfl
@[simp] theorem floatLine_rst_rstFloats (s : State) : (floatLine .rst s).rstFloats = true := rfl
@[simp] theorem floatLine_rst_dcFloats (s : State) : (floatLine .rst s).dcFloats = s.dcFloats := rfl
@[simp] theorem floatLine_rst_cur (s : State) : (floatLine .rst s).cur = s.cur := rfl
@[simp] theorem floatLine_rst_rsp (s : State) : (floatLine .rst s).rsp = s.rsp := rfl
@[simp] theorem floatLine_rst_trace (s : State) : (floatLine .rst s).trace = s.trace := rfl
@[simp] theorem floatLine_rst_fb (s : State) : (floatLine .rst s).fb = s.fb := rfl
@[simp] theorem floatLine_rst_reqs (s : State) : (floatLine .rst s).reqs = s.reqs := rfl
@[simp] theorem floatLine_rst_acks (s : State) : (floatLine .rst s).acks = s.acks := rfl
@[simp] theorem floatLine_rst_polls (s : State) : (floatLine .rst s).polls = s.polls := rfl
@[simp] theorem floatLine_rst_drawn (s : State) : (floatLine .rst s).drawn = s.drawn := rfl

/-! ### floatLine_dc -/

@[simp] theorem floatLine_dc_cfg (s : State) : (floatLine .dc s).cfg = s.cfg := rfl
@[simp] theorem floatLine_dc_dev (s : State) : (floatLine .dc s).dev = s.dev := rfl
@[simp] theorem floatLine_dc_rst (s : State) : (floatLine .dc s).rst = s.rst := rfl
@[simp] theorem floatLine_dc_dc (s : State) : (floatLine .dc s).dc = s.dc := rfl
@[simp] theorem floatLine_dc_rstFloats (s : State) : (floatLine .dc s).rstFloats = s.rstFloats := rfl
@[simp] theorem floatLine_dc_dcFloats (s : State) : (floatLine .dc s).dcFloats = true := rfl
@[simp] theorem floatLine_dc_cur (s : State) : (floatLine .dc s).cur = s.cur := rfl
@[simp] theorem floatLine_dc_rsp (s : State) : (floatLine .dc s).rsp = s.rsp := rfl
@[simp] theorem floatLine_dc_trace (s : State) : (floatLine .dc s).trace = s.trace := rfl
@[simp] theorem floatLine_dc_fb (s : State) : (floatLine .dc s).fb = s.fb := rfl
@[simp] theorem floatLine_dc_reqs (s : State) : (floatLine .dc s).reqs = s.reqs := rfl
@[simp] theorem floatLine_dc_acks (s : State) : (floatLine .dc s).acks = s.acks := rfl
@[simp] theorem floatLine_dc_polls (s : State) : (floatLine .dc s).polls = s.polls := rfl
@[simp] theorem floatLine_dc_drawn (s : State) : (floatLine .dc s).drawn = s.drawn := rfl

/-! ### setLine, whichever line -/

@[simp] theorem setLine_cfg (l : Line) (v : Bit) (s : State) : (setLine l v s).cfg = s.cfg := by cases l <;> rfl
@[simp] theorem setLine_dev (l : Line) (v : Bit) (s : State) : (setLine l v s).dev = s.dev := by cases l <;> rfl
@[simp] theorem setLine_cur (l : Line) (v : Bit) (s : State) : (setLine l v s).cur = s.cur := by cases l <;> rfl
@[simp] theorem setLine_rsp (l : Line) (v : Bit) (s : State) : (setLine l v s).rsp = s.rsp := by cases l <;> rfl
@[simp] theorem setLine_trace (l : Line) (v : Bit) (s : State) : (setLine l v s).trace = s.trace := by cases l <;> rfl
@[simp] theorem setLine_fb (l : Line) (v : Bit) (s : State) : (setLine l v s).fb = s.fb := by cases l <;> rfl
@[simp] theorem setLine_reqs (l : Line) (v : Bit) (s : State) : (setLine l v s).reqs = s.reqs := by cases l <;> rfl
@[simp] theorem setLine_acks (l : Line) (v : Bit) (s : State) : (setLine l v s).acks = s.acks := by cases l <;> rfl
@[simp] theorem setLine_polls (l : Line) (v : Bit) (s : State) : (setLine l v s).polls = s.polls := by cases l <;> rfl
@[simp] theorem setLine_drawn (l : Line) (v : Bit) (s : State) : (setLine l v s).drawn = s.drawn := by cases l <;> rfl

/-! ### floatLine, whichever line -/

@[simp] theorem floatLine_cfg (l : Line) (s : State) : (floatLine l s).cfg = s.cfg := by cases l <;> rfl
@[simp] theorem floatLine_dev (l : Line) (s : State) : (floatLine l s).dev = s.dev := by cases l <;> rfl
@[simp] theorem floatLine_rst (l : Line) (s : State) : (floatLine l s).rst = s.rst := by cases l <;> rfl
@[simp] theorem floatLine_dc (l : Line) (s : State) : (floatLine l s).dc = s.dc := by cases l <;> rfl
@[simp] theorem floatLine_cur (l : Line) (s : State) : (floatLine l s).cur = s.cur := by cases l <;> rfl
@[simp] theorem floatLine_rsp (l : Line) (s : State) : (floatLine l s).rsp = s.rsp := by cases l <;> rfl
@[simp] theorem floatLine_trace (l : Line) (s : State) : (floatLine l s).trace = s.trace := by cases l <;> rfl
@[simp] theorem floatLine_fb (l : Line) (s : State) : (floatLine l s).fb = s.fb := by cases l <;> rfl
@[simp] theorem floatLine_reqs (l : Line) (s : State) : (floatLine l s).reqs = s.reqs := by cases l <;> rfl
@[simp] theorem floatLine_acks (l : Line) (s : State) : (floatLine l s).acks = s.acks := by cases l <;> rfl
@[simp] theorem floatLine_polls (l : Line) (s : State) : (floatLine l s).polls = s.polls := by cases l <;> rfl
@[simp] theorem floatLine_drawn (l : Line) (s : State) : (floatLine l s).drawn = s.drawn := by cases l <;> rfl

@[simp] theorem floatLine_rst_reg (l : Line) (s : State) : (floatLine l s).rst = s.rst := by cases l <;> rfl
@[simp] theorem floatLine_dc_reg (l : Line) (s : State) : (floatLine l s).dc = s.dc := by cases l <;> rfl

@[simp] theorem lineReg_setLine (l : Line) (v : Bit) (s : State) : lineReg l (setLine l v s) = some v := by cases l <;> rfl

end Sys2Proof.Machine
end

