-- ==== Sys2Proof/Laws/Ops.lean ====
section
/-! SUPPORT. One lemma per shared operation, saying everything it can do to the trace and the registers, and from them one lemma for every instruction that is no request: provers cite these and never unfold a meaning. -/

namespace Sys2Proof.Machine

/-! ### What one action does -/

/-- What one action of a running request does to the trace and the line registers. -/
inductive Act (s t : State) : Prop where
  | line (l : Line) (v : Bit) (tr : t.trace = s.trace ++ [.line l v .ok])
      (reg : lineReg l t = some v) (other : ∀ l', l' ≠ l → lineReg l' t = lineReg l' s)
  | quiet (e : List Event) (len : e.length ≤ 1) (tr : t.trace = s.trace ++ e)
      (kind : ∀ x ∈ e, (∃ l v, x = .line l v .fail) ∨ (∃ b a, x = .byte (byteLevel s) b a) ∨ (∃ k, x = .delay k) ∨ ∃ v, x = .poll v)
      (rst : t.rst = s.rst) (dc : t.dc = s.dc)

/-- The configuration, the framebuffer and the queue of words are unchanged. -/
structure Frame (s t : State) : Prop where
  cfg : t.cfg = s.cfg
  fb : t.fb = s.fb
  reqs : t.reqs = s.reqs

/-- What one action of a running request does. -/
structure Acted (s t : State) : Prop where
  frame : Frame s t
  rsp : t.rsp = s.rsp
  cur : t.cur.isSome = s.cur.isSome
  act : Act s t

/-- An operation that touches nothing but the run register and `dev`. -/
structure RunOnly (k : State → State) : Prop where
  frame : ∀ s, Frame s (k s)
  rsp : ∀ s, (k s).rsp = s.rsp
  cur : ∀ s, (k s).cur.isSome = s.cur.isSome
  trace : ∀ s, (k s).trace = s.trace
  rst : ∀ s, (k s).rst = s.rst
  dc : ∀ s, (k s).dc = s.dc

/-- Operations on the run register touch nothing else. -/
theorem runOnly_mapRun (f) : RunOnly (mapRun f) := by
  constructor <;> intro s <;> try simp
  constructor <;> simp

/-- Finishing with a lifecycle move touches nothing else. -/
theorem runOnly_setDev (g : State → DeviceState) : RunOnly (fun t => finish (setDev (g t) t)) := by
  constructor <;> intro s <;> try simp
  constructor <;> simp

/-- All a line write can do (R79). -/
theorem writeLine_acted (l v k s) (hk : RunOnly k) : Acted s (writeLine l v k s) := by
  unfold writeLine
  split <;> rename_i h
  · refine ⟨⟨?_,?_,?_⟩,?_,?_, .line l v ?_ ?_ ?_⟩
    · simp [(hk.frame _).cfg]
    · simp [(hk.frame _).fb]
    · simp [(hk.frame _).reqs]
    · simp [hk.rsp]
    · simp [hk.cur]
    · simp [hk.trace]
    · cases l <;> simp [lineReg, hk.rst, hk.dc]
    · intro l' hl; cases l <;> cases l' <;> simp at hl <;> simp [lineReg, hk.rst, hk.dc]
  · refine ⟨⟨?_,?_,?_⟩,?_,?_, .quiet [.line l v .fail] ?_ ?_ ?_ ?_ ?_⟩ <;> simp

/-- All a byte write can do (R75). -/
theorem writeByte_acted (b k s) (hk : RunOnly k) : Acted s (writeByte b k s) := by
  unfold writeByte
  split <;> rename_i h
  · refine ⟨⟨?_,?_,?_⟩,?_,?_, .quiet [.byte (byteLevel s) b .ok] ?_ ?_ ?_ ?_ ?_⟩ <;> simp [(hk.frame _).cfg, (hk.frame _).fb, (hk.frame _).reqs, hk.rsp, hk.cur, hk.trace, hk.rst, hk.dc]
  · refine ⟨⟨?_,?_,?_⟩,?_,?_, .quiet [.byte (byteLevel s) b .fail] ?_ ?_ ?_ ?_ ?_⟩ <;> simp

/-- All a poll can do (R82). -/
theorem pollOnce_acted (n s) : Acted s (pollOnce n s) := by
  unfold pollOnce
  split
  · refine ⟨⟨?_,?_,?_⟩,?_,?_, .quiet [.poll (nextLevel s)] ?_ ?_ ?_ ?_ ?_⟩ <;> simp
  · split
    · refine ⟨⟨?_,?_,?_⟩,?_,?_, .quiet [.poll (nextLevel s)] ?_ ?_ ?_ ?_ ?_⟩ <;> simp
    · refine ⟨⟨?_,?_,?_⟩,?_,?_, .quiet [.poll (nextLevel s)] ?_ ?_ ?_ ?_ ?_⟩ <;> simp

/-- All an action of CMD can do (R75). -/
theorem commandAction_acted (c s r) : Acted s (commandAction c s r) := by
  unfold commandAction
  split
  · exact writeByte_acted _ _ _ (runOnly_setDev _)
  · exact writeLine_acted _ _ _ _ (runOnly_mapRun _)

/-- All an action of DATA, FILL or STREAM can do (R76 to R78). -/
theorem payloadAction_acted (n f s r t) (h : payloadAction n f s r = .next t) : Acted s t := by
  unfold payloadAction at h
  split at h
  · split at h
    · split at h
      · cases h
      · cases h; split
        · exact writeByte_acted _ _ _ (runOnly_mapRun _)
        · exact writeByte_acted _ _ _ (runOnly_mapRun _)
    · cases h
      refine ⟨⟨?_,?_,?_⟩,?_,?_, .quiet [] ?_ ?_ ?_ ?_ ?_⟩ <;> simp
  · cases h; split
    · exact writeLine_acted _ _ _ _ (runOnly_mapRun _)
    · exact writeLine_acted _ _ _ _ (runOnly_mapRun _)

/-- A micro-operation that answers a next state had a running request. -/
theorem inRun_next {s k t} (h : inRun s k = .next t) : ∃ r, s.cur = some r ∧ k r = .next t := by
  unfold inRun at h; split at h
  · cases h
  · exact ⟨_, ‹_›, h⟩

/-- Splicing a macro does not show. -/
theorem acted_splice {ops s t} (h : Acted (splice ops s) t) : Acted s t := by
  obtain ⟨⟨h1,h2,h3⟩,h4,h5,h6⟩ := h
  simp at h1 h2 h3 h4 h5
  refine ⟨⟨h1,h2,h3⟩,h4,h5,?_⟩
  cases h6 with
  | line l v a b c => 
    refine .line l v (by simpa using a) b ?_
    intro l' hl; have := c l' hl; cases l' <;> simpa [lineReg] using this
  | quiet e a b c d f => exact .quiet e a (by simpa using b) (by simpa [byteLevel] using c) (by simpa using d) (by simpa using f)

/-- All CMD can do. -/
theorem execCmd_acted {c s t} (h : execCmd c s = .next t) : Acted s t := by
  obtain ⟨r, hr, h⟩ := inRun_next h; cases h; exact commandAction_acted _ _ _

/-- All SEND can do. -/
theorem execSend_acted {c bs s t} (h : execSend c bs s = .next t) : Acted s t :=
  acted_splice (execCmd_acted h)

/-- All LINE can do. -/
theorem execLine_acted {l v s t} (h : execLine l v s = .next t) : Acted s t := by
  obtain ⟨r, hr, h⟩ := inRun_next h; cases h; exact writeLine_acted _ _ _ _ (runOnly_mapRun _)

/-- All a panel command or micro-operation can do when it answers a next state. -/
theorem exec_acted {i s t} (hi : i.isRequest = false) (h : exec i s = .next t) : Acted s t := by
  cases i <;> simp [Instr.isRequest] at hi
  case cmd => exact execCmd_acted h
  case line => exact execLine_acted h
  case send => exact execSend_acted h
  case hwReset => exact acted_splice (execLine_acted h)
  case data => obtain ⟨r, hr, h⟩ := inRun_next h; exact payloadAction_acted _ _ _ _ _ h
  case fill => obtain ⟨r, hr, h⟩ := inRun_next h; exact payloadAction_acted _ _ _ _ _ h
  case stream => obtain ⟨r, hr, h⟩ := inRun_next h; exact payloadAction_acted _ _ _ _ _ h
  case delay k => 
    obtain ⟨r, hr, h⟩ := inRun_next h; cases h
    refine ⟨⟨?_,?_,?_⟩,?_,?_, .quiet [.delay k] ?_ ?_ ?_ ?_ ?_⟩ <;> simp
  case wait => obtain ⟨r, hr, h⟩ := inRun_next h; cases h; exact pollOnce_acted _ _
  case setdev => 
    obtain ⟨r, hr, h⟩ := inRun_next h; cases h
    refine ⟨⟨?_,?_,?_⟩,?_,?_, .quiet [] ?_ ?_ ?_ ?_ ?_⟩ <;> simp
  case writeBwData => obtain ⟨r, hr, h⟩ := inRun_next h; exact acted_splice (execCmd_acted h)
  case writeRedData => exact acted_splice (execCmd_acted h)
  all_goals exact execSend_acted h

/-! ### Requests -/

/-- Every request row executes as `request`. -/
theorem exec_request {i s} (hi : i.isRequest = true) : exec i s = request i s := by
  cases i <;> simp [Instr.isRequest] at hi <;> rfl

/-- The three outcomes of dispatch (R85, R127). -/
theorem dispatch_cases (i s) : (dispatch i s = { s with trace := s.trace ++ [.respond .illegal], rsp := some .illegal, cur := none}) ∨
   (dispatch i s = { s with trace := s.trace ++ [.respond .invalidState], rsp := some .invalidState, cur := none}) ∨
   (dispatch i s = { s with cur := some ⟨i, expand s.cfg i, 0, 0, false, none⟩}) := by
  unfold dispatch
  split
  · left; rfl
  · split
    · right; left; rfl
    · right; right; rfl

/-- A request is held or dispatched. -/
theorem request_cases {i s t} (h : request i s = .next t) : (∃ r, s.cur = some r ∧ t = s) ∨ (s.cur = none ∧ t = dispatch i (emit (.accept (encodeRequest i)) s)) := by
  unfold request at h
  split at h <;> cases h
  · right; exact ⟨‹_›, rfl⟩
  · left; exact ⟨_, ‹_›, rfl⟩

/-! ### The run register -/

/-- The number of payload bytes of a micro-operation. -/
def payloadCount : Instr → Nat
  | .data bs => bs.length
  | .fill _ n => n
  | .stream n => n
  | _ => 0

/-- What one step of a primitive micro-operation does to the run register, `dev` and the DC register. -/
inductive PrimStep (s : State) (r : Run) (i : Instr) (t : State) : Prop where
  | failed (cur : t.cur = some { r with raised := some .busError }) (dev : t.dev = s.dev)
  | driven (un : r.framed = false) (k : (∃ c, i = .cmd c) ∨ 0 < payloadCount i)
      (cur : t.cur = some { r with framed := true }) (dev : t.dev = s.dev)
      (dc : t.dc = some (frameLevel s.cfg (some i)))
  | counted (fr : r.framed = true) (lt : r.sub + 1 < payloadCount i)
      (cur : t.cur = some { r with sub := r.sub + 1 }) (dev : t.dev = s.dev) (dc : t.dc = s.dc)
  | polled (w : i = .wait) (lt : r.sub + 1 ≠ s.cfg.waitBound)
      (cur : t.cur = some { r with sub := r.sub + 1 }) (dev : t.dev = s.dev) (dc : t.dc = s.dc)
  | timedOut (w : i = .wait) 
      (cur : t.cur = some { r with sub := r.sub + 1, raised := some .timeout }) (dev : t.dev = devAfterWait s.dev)
  | finished (cur : t.cur = some { r with mpc := r.mpc + 1, sub := 0, framed := false })
      (dev : t.dev = devAfterOp s.dev i)

/-- A line write goes on or raises BusError. -/
theorem writeLine_prim {s r l v k t} (hc : s.cur = some r) (h : writeLine l v k s = t) :
   (t.cur = some { r with raised := some .busError } ∧ t.dev = s.dev) ∨ t = k (setLine l v (emit (.line l v .ok) (dropAck s))) := by
  unfold writeLine at h; split at h
  · right; exact h.symm
  · left; subst h; simp [hc]

/-- A byte write goes on or raises BusError. -/
theorem writeByte_prim {s r b k t} (hc : s.cur = some r) (h : writeByte b k s = t) :
   (t.cur = some { r with raised := some .busError } ∧ t.dev = s.dev) ∨ t = k (emit (.byte (byteLevel s) b .ok) (dropAck s)) := by
  unfold writeByte at h; split at h
  · right; exact h.symm
  · left; subst h; simp [hc]

/-- A step of a payload micro-operation on the run register. -/
theorem payload_prim {s r i t f} (hc : s.cur = some r) (hp : i.isPrimitive = true)
    (hk : ∃ bs, i = .data bs ∨ (∃ v n, i = .fill v n) ∨ ∃ n, i = .stream n)
    (h : payloadAction (payloadCount i) f s r = .next t) : PrimStep s r i t := by
  have hd : ∀ d, devAfterOp d i = d := by
    intro d; obtain ⟨bs, rfl | ⟨v, n, rfl⟩ | ⟨n, rfl⟩⟩ := hk <;> rfl
  have hl : frameLevel s.cfg (some i) = dcDataLevel s.cfg := by
    obtain ⟨bs, rfl | ⟨v, n, rfl⟩ | ⟨n, rfl⟩⟩ := hk <;> rfl
  unfold payloadAction at h
  split at h
  · rename_i hf
    split at h
    · split at h
      · cases h
      · injection h with h
        rcases writeByte_prim hc h with ⟨a, b⟩ | rfl
        · exact .failed a b
        · split
          · exact .finished (by simp [hc]) (by simp [hd])
          · exact .counted hf (by omega) (by simp [hc]) (by simp) (by simp)
    · injection h with h; subst h; exact .finished (by simp [hc]) (by simp [hd])
  · rename_i hf
    injection h with h
    rcases writeLine_prim hc h with ⟨a, b⟩ | rfl
    · exact .failed a b
    · split
      · exact .finished (by simp [hc]) (by simp [hd])
      · exact .driven (by simpa using hf) (Or.inr (by omega)) (by simp [hc]) (by simp) (by simp [hl])

/-- A step of a primitive micro-operation on the run register. -/
theorem exec_prim {s r i t} (hc : s.cur = some r) (hp : i.isPrimitive = true) (h : exec i s = .next t) : PrimStep s r i t := by
  cases i <;> simp [Instr.isPrimitive] at hp
  case cmd c =>
    simp [exec, execCmd, inRun, hc, commandAction] at h
    split at h
    · rcases writeByte_prim hc h with ⟨a, b⟩ | rfl
      · exact .failed a b
      · exact .finished (by simp [hc]) (by simp [devAfterOp])
    · rename_i hf
      rcases writeLine_prim hc h with ⟨a, b⟩ | rfl
      · exact .failed a b
      · exact .driven (by simpa using hf) (Or.inl ⟨c, rfl⟩) (by simp [hc]) (by simp) (by simp [frameLevel])
  case data bs => simp [exec, execData, inRun, hc] at h; exact payload_prim hc rfl ⟨bs, Or.inl rfl⟩ h
  case fill v n => simp [exec, execFill, inRun, hc] at h; exact payload_prim hc rfl ⟨[], Or.inr (Or.inl ⟨v, n, rfl⟩)⟩ h
  case stream n => simp [exec, execStream, inRun, hc] at h; exact payload_prim hc rfl ⟨[], Or.inr (Or.inr ⟨n, rfl⟩)⟩ h
  case line l v =>
    simp [exec, execLine, inRun, hc] at h
    rcases writeLine_prim hc h with ⟨a, b⟩ | rfl
    · exact .failed a b
    · exact .finished (by simp [hc]) (by simp [devAfterOp])
  case delay k => simp [exec, execDelay, inRun, hc] at h; subst h; exact .finished (by simp [hc]) (by simp [devAfterOp])
  case setdev d => simp [exec, execSetdev, inRun, hc] at h; subst h; exact .finished (by simp [hc]) (by simp [devAfterOp])
  case wait =>
    simp [exec, execWait, inRun, hc, pollOnce] at h
    split at h
    · split at h
      · subst h; exact .timedOut rfl (by simp [hc]) (by simp)
      · subst h; rename_i h2; exact .polled rfl h2 (by simp [hc]) (by simp) (by simp)
    · subst h; exact .finished (by simp [hc]) (by simp [devAfterOp])

/-! ### The trace -/

/-- One event more, for the level read. -/
theorem lastLevel_snoc (l tr e) : lastLevel l (tr ++ [e]) = levelStep l (lastLevel l tr) e := by
  simp [lastLevel, List.foldl_append]

/-- One event more, for the result read. -/
theorem lastResult_snoc (tr e) : lastResult (tr ++ [e]) = resultStep (lastResult tr) e := by
  simp [lastResult, List.foldl_append]

/-- One event more, for the request protocol. -/
theorem openAfter_snoc (tr e) : openAfter (tr ++ [e]) = openStep (openAfter tr) e := by
  simp [openAfter, List.foldl_append]

/-- The level the framing check holds is the level read. -/
theorem framing_fst (tr) : (tr.foldl framingStep (none, true)).1 = lastLevel .dc tr := by
  induction tr using List.reverseRecOn with
  | nil => rfl
  | append_singleton l e ih =>
    rw [lastLevel_snoc, List.foldl_append, List.foldl_cons, List.foldl_nil, ← ih]
    cases e <;> simp [framingStep, levelStep]

/-- One event more, for the framing check. -/
theorem bytesFramed_snoc (tr e) : bytesFramed (tr ++ [e]) = (bytesFramed tr && (match e with | .byte d _ _ => lastLevel .dc tr == some d | _ => true)) := by
  unfold bytesFramed
  rw [List.foldl_append, List.foldl_cons, List.foldl_nil, ← framing_fst]
  cases e <;> simp [framingStep]

/-- A primitive micro-operation writes a byte only once DC is driven, at the DC register's level. -/
theorem byte_needs_dc {s t : State} {r : Run} {i : Instr} (hc : s.cur = some r)
    (hprim : i.isPrimitive = true) (h : exec i s = .next t) : 
    (∃ d b a, t.trace = s.trace ++ [.byte d b a] ∧ d = byteLevel s ∧ r.framed = true) ∨ 
    (t.trace = s.trace) ∨ ∃ e, t.trace = s.trace ++ [e] ∧ ∀ d b a, e ≠ .byte d b a := by
  have wl : ∀ l v k, RunOnly k → ∃ e, (writeLine l v k s).trace = s.trace ++ [e] ∧ ∀ d b a, e ≠ .byte d b a := by
    intro l v k hk; unfold writeLine; split
    · exact ⟨_, by simp [hk.trace]; rfl, by simp⟩
    · exact ⟨_, by simp; rfl, by simp⟩
  have wb : ∀ b k, RunOnly k → ∃ a, (writeByte b k s).trace = s.trace ++ [.byte (byteLevel s) b a] := by
    intro b k hk; unfold writeByte; split
    · exact ⟨_, by simp [hk.trace]; rfl⟩
    · exact ⟨_, by simp; rfl⟩
  have pl : ∀ n f, payloadAction n f s r = .next t → (∃ d b a, t.trace = s.trace ++ [.byte d b a] ∧ d = byteLevel s ∧ r.framed = true) ∨ 
    (t.trace = s.trace) ∨ ∃ e, t.trace = s.trace ++ [e] ∧ ∀ d b a, e ≠ .byte d b a := by
    intro n f h
    unfold payloadAction at h
    split at h
    · rename_i hf
      split at h
      · split at h
        · cases h
        · cases h
          left
          obtain ⟨a, ha⟩ := wb _ (if r.sub + 1 = n then finish else countOne) (by split <;> exact runOnly_mapRun _)
          exact ⟨_, _, _, ha, rfl, hf⟩
      · cases h; right; left; simp
    · cases h; right; right; exact wl _ _ _ (by split <;> exact runOnly_mapRun _)
  cases i <;> simp [Instr.isPrimitive] at hprim <;> simp [exec, execCmd, execData, execFill, execStream, execLine, execDelay, execWait, execSetdev, inRun, hc] at h
  case cmd c =>
    subst h; unfold commandAction; split
    · left; obtain ⟨a, ha⟩ := wb _ _ (runOnly_setDev (fun t => devAfterCommand c t.dev)); exact ⟨_, _, _, ha, rfl, ‹_›⟩
    · right; right; exact wl _ _ _ (runOnly_mapRun _)
  case data => exact pl _ _ h
  case fill => exact pl _ _ h
  case stream => exact pl _ _ h
  case line => subst h; right; right; exact wl _ _ _ (runOnly_mapRun _)
  case delay => subst h; right; right; exact ⟨_, by simp; rfl, by simp⟩
  case setdev => subst h; right; left; simp
  case wait =>
    subst h; right; right; unfold pollOnce; split
    · exact ⟨_, by simp; rfl, by simp⟩
    · split <;> exact ⟨_, by simp; rfl, by simp⟩

/-! ### The host's moves -/

/-- All the host's presenting of a word can do: no request runs, and the word joins the host's words. -/
theorem present_some {w : Word} {s t : State} (h : present w s = some t) :
    s.cur = none ∧ t = { s with reqs := s.reqs ++ [w] } := by
  simpa [present, eq_comm] using h

/-- All the host's framebuffer write can do. -/
theorem hostStore_some {a : Nat} {b : Byte} {s t : State} (h : hostStore a b s = some t) :
    s.cur = none ∧ a < s.cfg.fbLen ∧ t = { s with fb := Memory.put s.fb a b } := by
  simpa [hostStore, and_assoc, eq_comm] using h

end Sys2Proof.Machine
end

