-- ==== Sys2Proof/Laws/PerInstr.lean ====
section
/-! SUPPORT. The per-instruction family HasCode: which of the three binary forms an instruction has (R57, R71, R72). -/

namespace Sys2Proof.Laws.HasCode

/-- A request row has a request word, a panel command row has command bytes that start with an opcode of the vocabulary, and a
micro-operation row has no code. -/
def Statement (i : Instr) : Prop :=
  ∀ o : Opcodes,
    (i.isRequest = true ∧ i.isMicro = false ∧ encode o i = some (.request (encodeRequest i)))
    ∨ (i.isCommand = true ∧ ∃ c bs, commandName i = some c ∧ encode o i = some (.command (opcodeOf o c :: bs)))
    ∨ (i.isMicro = true ∧ i.isRequest = false ∧ encode o i = none)

/-! ### Requests -/

theorem init : Statement .init := fun _ => .inl ⟨rfl, rfl, rfl⟩
theorem writeAndUpdateFull : Statement .writeAndUpdateFull := fun _ => .inl ⟨rfl, rfl, rfl⟩
theorem writeAndUpdateFast : Statement .writeAndUpdateFast := fun _ => .inl ⟨rfl, rfl, rfl⟩
theorem writeAndUpdatePartial : Statement .writeAndUpdatePartial := fun _ => .inl ⟨rfl, rfl, rfl⟩
theorem updateFull : Statement .updateFull := fun _ => .inl ⟨rfl, rfl, rfl⟩
theorem updateFast : Statement .updateFast := fun _ => .inl ⟨rfl, rfl, rfl⟩
theorem updatePartial : Statement .updatePartial := fun _ => .inl ⟨rfl, rfl, rfl⟩
theorem clear (v : Byte) : Statement (.clear v) := fun _ => .inl ⟨rfl, rfl, rfl⟩
theorem sleep : Statement .sleep := fun _ => .inl ⟨rfl, rfl, rfl⟩
theorem illegal (w : Word) : Statement (.illegal w) := fun _ => .inl ⟨rfl, rfl, rfl⟩

/-! ### Panel commands -/

theorem swReset : Statement .swReset := fun _ => .inr (.inl ⟨rfl, _, _, rfl, rfl⟩)
theorem driverOutputCtrl : Statement .driverOutputCtrl := fun _ => .inr (.inl ⟨rfl, _, _, rfl, rfl⟩)
theorem dataEntryMode : Statement .dataEntryMode := fun _ => .inr (.inl ⟨rfl, _, _, rfl, rfl⟩)
theorem setRamXWindow : Statement .setRamXWindow := fun _ => .inr (.inl ⟨rfl, _, _, rfl, rfl⟩)
theorem setRamYWindow : Statement .setRamYWindow := fun _ => .inr (.inl ⟨rfl, _, _, rfl, rfl⟩)
theorem setRamXCounter : Statement .setRamXCounter := fun _ => .inr (.inl ⟨rfl, _, _, rfl, rfl⟩)
theorem setRamYCounter : Statement .setRamYCounter := fun _ => .inr (.inl ⟨rfl, _, _, rfl, rfl⟩)
theorem borderWaveform : Statement .borderWaveform := fun _ => .inr (.inl ⟨rfl, _, _, rfl, rfl⟩)
theorem tempSensorCtrl : Statement .tempSensorCtrl := fun _ => .inr (.inl ⟨rfl, _, _, rfl, rfl⟩)
theorem boosterSoftStart : Statement .boosterSoftStart := fun _ => .inr (.inl ⟨rfl, _, _, rfl, rfl⟩)
theorem gateVoltage : Statement .gateVoltage := fun _ => .inr (.inl ⟨rfl, _, _, rfl, rfl⟩)
theorem sourceVoltage : Statement .sourceVoltage := fun _ => .inr (.inl ⟨rfl, _, _, rfl, rfl⟩)
theorem writeVcom : Statement .writeVcom := fun _ => .inr (.inl ⟨rfl, _, _, rfl, rfl⟩)
theorem writeLut : Statement .writeLut := fun _ => .inr (.inl ⟨rfl, _, _, rfl, rfl⟩)
theorem displayUpdateCtrl2 (pb : Byte) : Statement (.displayUpdateCtrl2 pb) := fun _ => .inr (.inl ⟨rfl, _, _, rfl, rfl⟩)
theorem masterActivate : Statement .masterActivate := fun _ => .inr (.inl ⟨rfl, _, _, rfl, rfl⟩)
theorem writeBwData : Statement .writeBwData := fun _ => .inr (.inl ⟨rfl, _, _, rfl, rfl⟩)
theorem writeRedData : Statement .writeRedData := fun _ => .inr (.inl ⟨rfl, _, _, rfl, rfl⟩)
theorem tempControlWrite : Statement .tempControlWrite := fun _ => .inr (.inl ⟨rfl, _, _, rfl, rfl⟩)
theorem deepSleep : Statement .deepSleep := fun _ => .inr (.inl ⟨rfl, _, _, rfl, rfl⟩)

/-! ### Micro-operations -/

theorem cmd (c : PanelCmd) : Statement (.cmd c) := fun _ => .inr (.inr ⟨rfl, rfl, rfl⟩)
theorem data (bs : List Byte) : Statement (.data bs) := fun _ => .inr (.inr ⟨rfl, rfl, rfl⟩)
theorem fill (v : Byte) (n : Nat) : Statement (.fill v n) := fun _ => .inr (.inr ⟨rfl, rfl, rfl⟩)
theorem stream (n : Nat) : Statement (.stream n) := fun _ => .inr (.inr ⟨rfl, rfl, rfl⟩)
theorem line (l : Line) (v : Bit) : Statement (.line l v) := fun _ => .inr (.inr ⟨rfl, rfl, rfl⟩)
theorem delay (k : Settle) : Statement (.delay k) := fun _ => .inr (.inr ⟨rfl, rfl, rfl⟩)
theorem hwReset : Statement .hwReset := fun _ => .inr (.inr ⟨rfl, rfl, rfl⟩)
theorem wait : Statement .wait := fun _ => .inr (.inr ⟨rfl, rfl, rfl⟩)
theorem setdev (d : DeviceState) : Statement (.setdev d) := fun _ => .inr (.inr ⟨rfl, rfl, rfl⟩)
theorem send (c : PanelCmd) (bs : List Byte) : Statement (.send c bs) := fun _ => .inr (.inr ⟨rfl, rfl, rfl⟩)

end Sys2Proof.Laws.HasCode
end

