-- ==== Sys2Proof/Laws/Step.lean ====
section
/-! SUPPORT. Everything one step can be, and runs of steps. -/

namespace Sys2Proof.Machine

/-- Every word decodes to a request row. -/
theorem decodeRequest_isRequest (w) : (decodeRequest w).isRequest = true := by
  unfold decodeRequest decodePlain decodeProfile
  repeat' split
  all_goals rfl

/-- Every case of a step that answers a next state (R74). -/
inductive StepCases (s t : State) : Prop where
  | idle (h : s.cur = none) (e : t = s)
  | accept (h : s.cur = none) (w rest) (hr : s.reqs = w :: rest) (e : t = dispatch (decodeRequest w) (emit (.accept (encodeRequest (decodeRequest w))) {s with reqs := rest}))
  | act (r) (h : s.cur = some r) (hr : r.raised = none) (i) (hi : r.prog[r.mpc]? = some i) (hq : i.isRequest = false) (e : exec i s = .next t)
  | held (r) (h : s.cur = some r) (hr : r.raised = none) (i) (hi : r.prog[r.mpc]? = some i) (hq : i.isRequest = true) (e : t = s)
  | abort (r) (h : s.cur = some r) (f) (hf : r.raised = some f) (e : t = Machine.abort f s)
  | complete (r) (h : s.cur = some r) (hr : r.raised = none) (hi : r.prog[r.mpc]? = none) (e : t = Machine.complete s)

/-- A step that answers a next state is one of them. -/
theorem step_cases {s t} (h : step s = .next t) : StepCases s t := by
  unfold step nextAction at h
  cases hc : s.cur with
  | none =>
    cases hr : s.reqs with
    | nil => simp [hc, hr] at h; exact .idle hc h.symm
    | cons w rest =>
      simp [hc, hr, exec_request (decodeRequest_isRequest w), request] at h
      exact .accept hc w rest hr h.symm
  | some r =>
    cases hf : r.raised with
    | some f => simp [hc, hf] at h; exact .abort r hc f hf h.symm
    | none =>
      cases hi : r.prog[r.mpc]? with
      | none => simp [hc, hf, hi] at h; exact .complete r hc hf hi h.symm
      | some i =>
        simp [hc, hf, hi] at h
        by_cases hq : i.isRequest = true
        · rw [exec_request hq] at h
          rcases request_cases h with ⟨r, _, rfl⟩ | ⟨h', rfl⟩
          · exact .held _ hc hf i hi hq rfl
          · simp [hc] at h'
        · exact .act r hc hf i hi (by simpa using hq) h

/-- No step. -/
theorem runSteps_zero {s} : runSteps 0 s = .next s := rfl

/-- One step, then the rest. -/
theorem runSteps_next {k s u} (h : step s = .next u) : runSteps (k+1) s = runSteps k u := by
  have : Sys2Proof.core.step s = .next u := h
  simp only [runSteps, Host.Core.run]
  rw [this]

/-- A run of at least one step takes it. -/
theorem run_next {k s t} (h : runSteps (k+1) s = .next t) : ∃ u, step s = .next u ∧ runSteps k u = .next t := by
  cases hs : step s with
  | next u => exact ⟨u, rfl, by rw [← runSteps_next hs]; exact h⟩
  | fault f => 
    have : Sys2Proof.core.step s = .fault f := hs
    simp only [runSteps, Host.Core.run] at h; rw [this] at h; cases h
  | refused f => 
    have : Sys2Proof.core.step s = .refused f := hs
    simp only [runSteps, Host.Core.run] at h; rw [this] at h; cases h

/-- A run and then another. -/
theorem runSteps_add {a b s t} (h : runSteps a s = .next t) : runSteps (a + b) s = runSteps b t := by
  induction a generalizing s with
  | zero => cases h; simp
  | succ a ih => obtain ⟨u, h1, h2⟩ := run_next h; rw [Nat.add_right_comm, runSteps_next h1]; exact ih h2

end Sys2Proof.Machine
end

