-- ==== Sys2Proof/Laws/TraceReader.lean ====
section
/-! SUPPORT. What one more event adds to what a reader of the trace sees: bus words, transactions and the pulses of rsp_valid. -/

namespace Sys2Proof.Machine

/-- A byte write adds its bus word, whatever its answer. -/
@[simp] theorem busWords_byte (tr : List Event) (d : Bit) (b : Byte) (a : Ack) :
    busWords (tr ++ [.byte d b a]) = busWords tr ++ [(d, b)] := by
  simp [busWords, List.filterMap_append]

/-- An opcode starts a transaction of its own (R65). -/
theorem transactions_opcode (c : Config) (ws : List (Bit × Byte)) (b : Byte) :
    transactions c (ws ++ [(c.dcCmdLevel, b)]) = transactions c ws ++ [(b, [])] := by
  simp [transactions, List.foldl_append]

/-- The pulses of a signal over two stretches. -/
theorem pulses_append (before : Bool) (xs ys : List Bool) :
    pulses before (xs ++ ys) = pulses before xs + pulses (xs.getLast?.getD before) ys := by
  induction xs generalizing before with
  | nil => simp [pulses]
  | cons x xs ih => simp [pulses, ih, List.getLast?_cons, Nat.add_assoc]

/-- A level of 0 starts no pulse. -/
@[simp] theorem pulses_low (before : Bool) : pulses before [false] = 0 := rfl

/-- Counting up to the present is counting up to the last event: the level now is 0. -/
theorem pulses_rspValid (s : State) : pulses false (rspValid s) = pulses false (s.trace.map rspValidAt) := by
  simp [rspValid, pulses_append]

end Sys2Proof.Machine
end

