-- ==== Sys2Proof/Tests/Slice0.lean ====
section
/-! SUPPORT. The model's own tests: the checks of WellFormed, one decoding per constructor from a word of the spec's tables, one-step
vectors of spec/95_test_vectors.md, and a witness of the hypotheses of every statement of Obligations.lean. -/

open Sys2Proof Sys2Proof.Machine

namespace Sys2Proof.Tests

/-! ### A small panel, 16 by 2 pixels, for tests that compute -/

/-- Payloads of one byte. -/
def tinyPayloads : Payloads where
  driverOutputCtrl := [0x01#8]
  dataEntryMode := [0x03#8]
  borderWaveform := [0x05#8]
  tempSensorCtrl := [0x80#8]
  boosterSoftStart := [0x8B#8]
  gateVoltage := [0x17#8]
  sourceVoltage := [0x41#8]
  writeVcom := [0x2A#8]
  deepSleep := [0x01#8]

/-- A well-formed configuration with WB = 2, FB_LEN = 4 and WAIT_BOUND = 3. -/
def tiny : Config where
  width := 16
  height := 2
  waitBound := 3
  tRst1 := 1
  tRst2 := 1
  tRst3 := 1
  dcCmdLevel := 0#1
  busyActiveLevel := 1#1
  op := refOpcodes
  payload := tinyPayloads
  lutLen := 1
  lutFull := [0x77#8]
  lutFast := [0x78#8]
  pbFull := 0xF7#8
  pbPartial := 0xFF#8
  pbFast1 := 0xB1#8
  pbFast2 := 0x91#8
  pbFast3 := 0xC7#8
  tempOverride := [0x64#8, 0x00#8]
  clearRed := true
  redFillValue := 0x00#8
  packX := [[0x00#8], [0x01#8]]
  packY := [[0x00#8, 0x00#8], [0x01#8, 0x00#8]]

/-- No request running. -/
def resting (d : DeviceState) : State := { State.reset with cfg := tiny, dev := d }

/-- A run of `ops` at its first micro-operation. -/
def runOf (req : Instr) (ops : List Instr) : Run := ⟨req, ops, 0, 0, false, none⟩

/-- A run of `ops` from `d`, with DC at the command level, the answers `as` and the busy levels `vs`. -/
def running (d : DeviceState) (ops : List Instr) (as : List Ack) (vs : List Bit) : State :=
  { resting d with dc := some 0#1, cur := some (runOf .updateFull ops), acks := as, polls := vs }

/-- `running` with DC driven for the current micro-operation and `n` bytes written. -/
def driven (d : DeviceState) (ops : List Instr) (n : Nat) (as : List Ack) : State :=
  { resting d with dc := some 0#1, acks := as,
                   cur := some { runOf .updateFull ops with framed := true, sub := n } }

/-- What a test reads of a next state. -/
def look {α : Type} (f : State → α) : Host.Outcome State Fault Refusal → Option α
  | .next t => some (f t)
  | .fault _ => none
  | .refused _ => none

/-- The failure raised in the run register. -/
def raisedOf (t : State) : Option Failure := t.cur.bind Run.raised

/-- Where the run stands: `mpc` and `sub`. -/
def placeOf (t : State) : Option (Nat × Nat) := t.cur.map (fun r => (r.mpc, r.sub))

/-- The program of the run. -/
def progOf (t : State) : Option (List Instr) := t.cur.map Run.prog

/-! ### WellFormed refuses (R59 to R62, R76 to R78, R83) -/

theorem test_wf_illegal_word : Instr.wellFormed tiny (.illegal 0x1000#16) = false := by decide
theorem test_wf_data_empty : Instr.wellFormed tiny (.data []) = false := by decide
theorem test_wf_fill_zero : Instr.wellFormed tiny (.fill 0xFF#8 0) = false := by decide
theorem test_wf_stream_length : Instr.wellFormed tiny (.stream 5) = false := by decide
theorem test_wf_setdev_busy : Instr.wellFormed tiny (.setdev .busy) = false := by decide
theorem test_wf_accepts : Instr.wellFormed tiny (.illegal 0x6000#16) = true ∧ Instr.wellFormed tiny (.data [0x01#8]) = true
    ∧ Instr.wellFormed tiny (.fill 0xFF#8 1) = true ∧ Instr.wellFormed tiny (.stream 4) = true
    ∧ Instr.wellFormed tiny (.setdev .idle) = true := by decide
/-- One broken clause of the configuration at a time (R9, R10, R13 to R17). -/
theorem test_wf_config : tiny.wf = true ∧ { tiny with width := 12 }.wf = false ∧ { tiny with height := 0 }.wf = false
    ∧ { tiny with waitBound := 0 }.wf = false ∧ { tiny with lutFull := [] }.wf = false
    ∧ { tiny with tempOverride := [] }.wf = false ∧ { tiny with packX := [] }.wf = false
    ∧ { tiny with packY := [] }.wf = false ∧ { tiny with width := 0 }.wf = false
    ∧ { tiny with lutFast := [] }.wf = false
    ∧ { tiny with payload := { tinyPayloads with deepSleep := [] } }.wf = false
    ∧ { tiny with payload := { tinyPayloads with writeVcom := [] } }.wf = false := by decide

/-! ### Decoding, from the words of R57 to R62, R70 and R101 to R120 (vectors V1 to V6) -/

theorem test_decode_init : decodeTableWord 16 0x1000 = some .init := by decide
theorem test_decode_writeAndUpdateFull : decodeTableWord 16 0x2000 = some .writeAndUpdateFull := by decide
theorem test_decode_writeAndUpdateFast : decodeTableWord 16 0x2100 = some .writeAndUpdateFast := by decide
theorem test_decode_writeAndUpdatePartial : decodeTableWord 16 0x2200 = some .writeAndUpdatePartial := by decide
theorem test_decode_updateFull : decodeTableWord 16 0x3000 = some .updateFull := by decide
theorem test_decode_updateFast : decodeTableWord 16 0x3100 = some .updateFast := by decide
theorem test_decode_updatePartial : decodeTableWord 16 0x3200 = some .updatePartial := by decide
theorem test_decode_clear : decodeTableWord 16 0x40AA = some (.clear 0xAA#8) := by decide
theorem test_decode_sleep : decodeTableWord 16 0x5000 = some .sleep := by decide
theorem test_decode_illegal : [0x0000#16, 0x0800#16, 0x6000#16, 0xF000#16, 0x1001#16, 0x1100#16, 0x1400#16, 0x4C00#16, 0x2300#16,
    0x3300#16, 0x2001#16, 0x3001#16, 0x4100#16, 0x5001#16, 0x5100#16].all
      (fun w => decide (decodeRequest w = .illegal w)) = true := by decide
theorem test_decode_swReset : decodeTableWord 8 0x12 = some .swReset := by decide
theorem test_decode_driverOutputCtrl : decodeTableWord 8 0x01 = some .driverOutputCtrl := by decide
theorem test_decode_dataEntryMode : decodeTableWord 8 0x11 = some .dataEntryMode := by decide
theorem test_decode_setRamXWindow : decodeTableWord 8 0x44 = some .setRamXWindow := by decide
theorem test_decode_setRamYWindow : decodeTableWord 8 0x45 = some .setRamYWindow := by decide
theorem test_decode_setRamXCounter : decodeTableWord 8 0x4E = some .setRamXCounter := by decide
theorem test_decode_setRamYCounter : decodeTableWord 8 0x4F = some .setRamYCounter := by decide
theorem test_decode_borderWaveform : decodeTableWord 8 0x3C = some .borderWaveform := by decide
theorem test_decode_tempSensorCtrl : decodeTableWord 8 0x18 = some .tempSensorCtrl := by decide
theorem test_decode_boosterSoftStart : decodeTableWord 8 0x0C = some .boosterSoftStart := by decide
theorem test_decode_gateVoltage : decodeTableWord 8 0x03 = some .gateVoltage := by decide
theorem test_decode_sourceVoltage : decodeTableWord 8 0x04 = some .sourceVoltage := by decide
theorem test_decode_writeVcom : decodeTableWord 8 0x2C = some .writeVcom := by decide
theorem test_decode_writeLut : decodeTableWord 8 0x32 = some .writeLut := by decide
theorem test_decode_masterActivate : decodeTableWord 8 0x20 = some .masterActivate := by decide
theorem test_decode_writeBwData : decodeTableWord 8 0x24 = some .writeBwData := by decide
theorem test_decode_writeRedData : decodeTableWord 8 0x26 = some .writeRedData := by decide
theorem test_decode_tempControlWrite : decodeTableWord 8 0x1A = some .tempControlWrite := by decide
theorem test_decode_deepSleep : decodeTableWord 8 0x10 = some .deepSleep := by decide
theorem test_decode_displayUpdateCtrl2 : decodeTableWord 8 0x22 = some (.displayUpdateCtrl2 0x00#8)
    ∧ decode refOpcodes (.command [0x22#8, 0xF7#8]) = .ok (.displayUpdateCtrl2 0xF7#8) := ⟨by decide, rfl⟩
theorem test_decode_truncated : decode refOpcodes (.command [0x22#8]) = .error .truncated := rfl
theorem test_decode_unlisted : decode refOpcodes (.command [0x00#8]) = .error (.notACommand 0x00#8) := rfl

/-! ### Requests (V7, V36, V37, V6) -/

theorem test_illegal_before_invalid_state :
    look (fun t => (t.dev, t.rsp, t.trace)) (exec (.illegal 0x6000#16) (resting .sleeping))
      = some (.sleeping, some .illegal, [.accept 0x6000#16, .respond .illegal]) := by decide
theorem test_clear_while_sleeping :
    look (fun t => (t.dev, t.rsp, t.trace)) (exec (.clear 0x00#8) (resting .sleeping))
      = some (.sleeping, some .invalidState, [.accept 0x4000#16, .respond .invalidState]) := by decide
theorem test_sleep_from_construction :
    look (fun t => (t.dev, t.trace)) (exec .sleep (resting .uninitialized))
      = some (.uninitialized, [.accept 0x5000#16, .respond .invalidState]) := by decide
theorem test_update_fast_from_construction :
    look (fun t => (t.dev, t.trace)) (exec .updateFast (resting .uninitialized))
      = some (.uninitialized, [.accept 0x3100#16, .respond .invalidState]) := by decide
/-- V37: INIT runs from Sleeping. -/
theorem test_init_from_sleeping :
    look (fun t => (t.trace, t.rsp, t.cur.isSome)) (exec .init (resting .sleeping))
      = some ([.accept 0x1000#16], none, true) := by decide
/-- The expansion of UPDATE FULL (V28). -/
theorem test_update_full_program :
    look progOf (exec .updateFull (resting .idle))
      = some (some [.cmd .displayUpdateCtrl2, .data [0xF7#8], .cmd .masterActivate, .wait]) := by decide
/-- V29. -/
theorem test_update_partial_program :
    look progOf (exec .updatePartial (resting .idle))
      = some (some [.cmd .displayUpdateCtrl2, .data [0xFF#8], .cmd .masterActivate, .wait]) := by decide
/-- The expansion of SLEEP (V33, E9). -/
theorem test_sleep_program :
    look progOf (exec .sleep (resting .idle))
      = some (some [.cmd .deepSleep, .data [0x01#8], .setdev .sleeping]) := by decide
/-- The expansion of CLEAR 0xFF (V31), with no red-plane clear although CLEAR_RED is true (V35). -/
theorem test_clear_program :
    look progOf (exec (.clear 0xFF#8) (resting .idle))
      = some (some [.cmd .setRamXWindow, .data [0x00#8, 0x01#8], .cmd .setRamYWindow,
          .data [0x00#8, 0x00#8, 0x01#8, 0x00#8], .cmd .setRamXCounter, .data [0x00#8],
          .cmd .setRamYCounter, .data [0x00#8, 0x00#8], .cmd .writeBwData, .fill 0xFF#8 4,
          .cmd .displayUpdateCtrl2, .data [0xF7#8], .cmd .masterActivate, .wait]) := by decide
/-- The red-plane clear at the end of WRITE_AND_UPDATE FULL (V34). -/
theorem test_red_clear_program :
    look (fun t => (progOf t).map (List.drop 14)) (exec .writeAndUpdateFull (resting .idle))
      = some (some [.cmd .setRamXCounter, .data [0x00#8], .cmd .setRamYCounter,
          .data [0x00#8, 0x00#8], .cmd .writeRedData, .fill 0x00#8 4, .wait]) := by decide
/-- A request held while one runs. -/
theorem test_request_held :
    look (fun t => (t.trace, placeOf t)) (exec .init (running .idle [.wait] [] []))
      = some ([], some (0, 0)) := by decide

/-! ### Micro-operations (V8 to V26) -/

/-- V9: the second line write fails; the register keeps 1 and the pin is any value. -/
theorem test_line_fails :
    look (fun t => (t.rst, t.rstFloats, t.trace, raisedOf t))
      (exec (.line .rst 0#1) { running .uninitialized [.line .rst 0#1] [.fail] [] with rst := some 1#1 })
      = some (some 1#1, true, [.line .rst 0#1 .fail], some .busError) := by decide
theorem test_line_drives :
    look (fun t => (t.rst, t.trace, placeOf t)) (exec (.line .rst 0#1) (running .idle [.line .rst 0#1] [.ok] []))
      = some (some 0#1, [.line .rst 0#1 .ok], some (1, 0)) := by decide
/-- V10, second event. -/
theorem test_cmd_trigger :
    look (fun t => (t.dev, t.trace, placeOf t)) (exec (.cmd .masterActivate) (driven .idle [.cmd .masterActivate] 0 [.ok]))
      = some (.busy, [.byte 0#1 0x20#8 .ok], some (1, 0)) := by decide
/-- V13. -/
theorem test_cmd_byte_fails :
    look (fun t => (t.dev, t.trace, raisedOf t)) (exec (.cmd .masterActivate) (driven .idle [.cmd .masterActivate] 0 [.fail]))
      = some (.idle, [.byte 0#1 0x20#8 .fail], some .busError) := by decide
/-- V39b, its last command byte answered fail: it was written and starts a transaction (R65), though the panel did not accept it. -/
theorem test_failed_command_byte_is_read :
    transactions tiny (busWords [.line .dc 0#1 .ok, .byte 0#1 0x22#8 .ok, .line .dc 1#1 .ok, .byte 1#1 0xF7#8 .ok,
      .line .dc 0#1 .ok, .byte 0#1 0x20#8 .fail]) = [(0x22#8, [0xF7#8]), (0x20#8, [])]
    ∧ acceptedWords [.line .dc 0#1 .ok, .byte 0#1 0x20#8 .fail] = [] := by decide
/-- V11: SW_RESET is no trigger. -/
theorem test_sw_reset_no_trigger :
    look (fun t => (t.dev, t.trace)) (exec (.cmd .swReset) (driven .uninitialized [.cmd .swReset] 0 [.ok]))
      = some (.uninitialized, [.byte 0#1 0x12#8 .ok]) := by decide
/-- V12: no byte after a failed DC write. -/
theorem test_cmd_dc_fails :
    look (fun t => (t.trace, raisedOf t)) (exec (.cmd .swReset) (running .idle [.cmd .swReset] [.fail] []))
      = some ([.line .dc 0#1 .fail], some .busError) := by decide
/-- V14, first two events. -/
theorem test_data_drives_dc :
    look (fun t => (t.dc, t.trace, placeOf t)) (exec (.data [0x8B#8, 0x9C#8]) (running .idle [.data [0x8B#8, 0x9C#8]] [.ok] []))
      = some (some 1#1, [.line .dc 1#1 .ok], some (0, 0)) := by decide
theorem test_data_last_byte :
    look (fun t => (t.trace, placeOf t))
      (exec (.data [0x8B#8, 0x9C#8]) { driven .idle [.data [0x8B#8, 0x9C#8]] 1 [.ok] with dc := some 1#1 })
      = some ([.byte 1#1 0x9C#8 .ok], some (1, 0)) := by decide
/-- V17, a byte that is not the last. -/
theorem test_fill_byte :
    look (fun t => (t.trace, placeOf t))
      (exec (.fill 0xFF#8 4736) { driven .idle [.fill 0xFF#8 4736] 4734 [.ok] with dc := some 1#1 })
      = some ([.byte 1#1 0xFF#8 .ok], some (0, 4735)) := by decide
/-- V18, with fb[3] = 0x7F on the small panel: the last byte, unchanged. -/
theorem test_stream_last_byte :
    look (fun t => (t.trace, placeOf t))
      (exec (.stream 4) { driven .idle [.stream 4] 3 [.ok] with dc := some 1#1, fb := [(3, 0x7F#8)] })
      = some ([.byte 1#1 0x7F#8 .ok], some (1, 0)) := by decide
/-- V19: a rejected byte raises BusError. -/
theorem test_stream_byte_fails :
    look (fun t => (t.trace, raisedOf t))
      (exec (.stream 4) { driven .idle [.stream 4] 1 [.fail] with dc := some 1#1, fb := [(1, 0xAA#8)] })
      = some ([.byte 1#1 0xAA#8 .fail], some .busError) := by decide
/-- V23: one poll, not busy. -/
theorem test_wait_first_poll :
    look (fun t => (t.dev, t.trace, placeOf t)) (exec .wait (running .busy [.wait] [] [0#1]))
      = some (.idle, [.poll 0#1], some (1, 0)) := by decide
/-- V21: the poll that reaches the bound. -/
theorem test_wait_bound :
    look (fun t => (t.dev, t.trace, raisedOf t)) (exec .wait
      { running .busy [.wait] [] [1#1] with cur := some { runOf .updateFull [.wait] with sub := 2 } })
      = some (.idle, [.poll 1#1], some .timeout) := by decide
/-- V24: the not-busy test comes before the count; V26: the polarity swapped. -/
theorem test_wait_not_busy_at_bound :
    look (fun t => (t.dev, raisedOf t)) (exec .wait
      { running .busy [.wait] [] [0#1] with cur := some { runOf .updateFull [.wait] with sub := 2 } })
      = some (.idle, none)
    ∧ look placeOf (exec .wait { running .busy [.wait] [] [0#1] with cfg := { tiny with busyActiveLevel := 0#1 } })
      = some (some (0, 1)) := by decide
/-- V26: DC polarity swapped. -/
theorem test_cmd_polarity :
    look (fun t => t.trace) (exec (.cmd .swReset)
      { running .idle [.cmd .swReset] [.ok] [] with cfg := { tiny with dcCmdLevel := 1#1 } })
      = some [.line .dc 1#1 .ok] := by decide
theorem test_delay :
    look (fun t => (t.trace, placeOf t)) (exec (.delay .t2) (running .idle [.delay .t2] [] []))
      = some ([.delay .t2], some (1, 0)) := by decide
theorem test_setdev :
    look (fun t => (t.dev, t.trace, placeOf t)) (exec (.setdev .sleeping) (running .idle [.setdev .sleeping] [] []))
      = some (.sleeping, [], some (1, 0)) := by decide
/-- V8 and R81. -/
theorem test_hw_reset :
    look (fun t => (t.rst, t.trace, progOf t)) (exec .hwReset (running .idle [.hwReset, .wait] [.ok] []))
      = some (some 1#1, [.line .rst 1#1 .ok], some [.line .rst 1#1, .delay .t1, .line .rst 0#1,
          .delay .t2, .line .rst 1#1, .delay .t3, .wait]) := by decide
/-- V15: the empty payload. -/
theorem test_send_empty :
    look (fun t => (t.trace, progOf t)) (exec (.send .swReset []) (running .idle [.send .swReset [], .wait] [.ok] []))
      = some ([.line .dc 0#1 .ok], some [.cmd .swReset, .wait]) := by decide
/-- V16. -/
theorem test_send_payload :
    look (fun t => (t.trace, progOf t)) (exec (.send .deepSleep [0x01#8]) (running .idle [.send .deepSleep [0x01#8]] [.ok] []))
      = some ([.line .dc 0#1 .ok], some [.cmd .deepSleep, .data [0x01#8]]) := by decide
theorem test_outside_run : exec .wait (resting .idle) = .refused .noRequestRunning := rfl

/-! ### Panel command rows (R101 to R120): the command and payload each puts in its place -/

/-- A row run as the only instruction of a run of request `req`. -/
def rowProgram (req i : Instr) : Option (Option (List Instr)) :=
  look progOf (exec i { running .idle [i] [.ok] [] with cur := some (runOf req [i]) })

theorem test_row_swReset : rowProgram .init .swReset = some (some [.cmd .swReset]) := by decide
theorem test_row_driverOutputCtrl : rowProgram .init .driverOutputCtrl = some (some [.cmd .driverOutputCtrl, .data [0x01#8]]) := by decide
theorem test_row_dataEntryMode : rowProgram .init .dataEntryMode = some (some [.cmd .dataEntryMode, .data [0x03#8]]) := by decide
theorem test_row_setRamXWindow : rowProgram .init .setRamXWindow = some (some [.cmd .setRamXWindow, .data [0x00#8, 0x01#8]]) := by decide
theorem test_row_setRamYWindow : rowProgram .init .setRamYWindow = some (some [.cmd .setRamYWindow, .data [0x00#8, 0x00#8, 0x01#8, 0x00#8]]) := by decide
theorem test_row_setRamXCounter : rowProgram .init .setRamXCounter = some (some [.cmd .setRamXCounter, .data [0x00#8]]) := by decide
theorem test_row_setRamYCounter : rowProgram .init .setRamYCounter = some (some [.cmd .setRamYCounter, .data [0x00#8, 0x00#8]]) := by decide
theorem test_row_borderWaveform : rowProgram .init .borderWaveform = some (some [.cmd .borderWaveform, .data [0x05#8]]) := by decide
theorem test_row_tempSensorCtrl : rowProgram .init .tempSensorCtrl = some (some [.cmd .tempSensorCtrl, .data [0x80#8]]) := by decide
theorem test_row_boosterSoftStart : rowProgram .init .boosterSoftStart = some (some [.cmd .boosterSoftStart, .data [0x8B#8]]) := by decide
theorem test_row_gateVoltage : rowProgram .init .gateVoltage = some (some [.cmd .gateVoltage, .data [0x17#8]]) := by decide
theorem test_row_sourceVoltage : rowProgram .init .sourceVoltage = some (some [.cmd .sourceVoltage, .data [0x41#8]]) := by decide
theorem test_row_writeVcom : rowProgram .init .writeVcom = some (some [.cmd .writeVcom, .data [0x2A#8]]) := by decide
theorem test_row_writeLut : rowProgram .init .writeLut = some (some [.cmd .writeLut, .data [0x77#8]]) := by decide
theorem test_row_displayUpdateCtrl2 : rowProgram .init (.displayUpdateCtrl2 0xC7#8) = some (some [.cmd .displayUpdateCtrl2, .data [0xC7#8]]) := by decide
theorem test_row_masterActivate : rowProgram .init .masterActivate = some (some [.cmd .masterActivate]) := by decide
theorem test_row_writeRedData : rowProgram .init .writeRedData = some (some [.cmd .writeRedData, .fill 0x00#8 4]) := by decide
theorem test_row_tempControlWrite : rowProgram .init .tempControlWrite = some (some [.cmd .tempControlWrite, .data [0x64#8, 0x00#8]]) := by decide
theorem test_row_deepSleep : rowProgram .init .deepSleep = some (some [.cmd .deepSleep, .data [0x01#8]]) := by decide
/-- R117: CLEAR sends copies of its byte, every other request the framebuffer. -/
theorem test_row_writeBwData : rowProgram (.clear 0xA5#8) .writeBwData = some (some [.cmd .writeBwData, .fill 0xA5#8 4])
    ∧ rowProgram .writeAndUpdateFull .writeBwData = some (some [.cmd .writeBwData, .stream 4]) := by decide

/-! ### The framebuffer (E1, V40 to V52) -/

theorem test_fb_len : refConfig.fbLen = 4736 := by decide
theorem test_index_of_r0 : indexOf refConfig 10 1 .r0 = .ok (17, 0x20#8) ∧ indexOf refConfig 127 295 .r0 = .ok (4735, 0x01#8) :=
  ⟨rfl, rfl⟩
theorem test_index_of_r1 : indexOf refConfig 10 3 .r1 = .ok (175, 0x08#8) ∧ indexOf refConfig 295 127 .r1 = .ok (4720, 0x80#8) :=
  ⟨rfl, rfl⟩
theorem test_index_of_r2 : indexOf refConfig 0 0 .r2 = .ok (4735, 0x01#8) ∧ indexOf refConfig 127 295 .r2 = .ok (0, 0x80#8) :=
  ⟨rfl, rfl⟩
theorem test_index_of_r3 : indexOf refConfig 10 3 .r3 = .ok (4560, 0x10#8) ∧ indexOf refConfig 0 0 .r3 = .ok (4720, 0x80#8) :=
  ⟨rfl, rfl⟩
theorem test_index_of_invalid : indexOf refConfig 128 0 .r0 = .error (.assertion 128 0 .r0)
    ∧ indexOf refConfig 0 128 .r1 = .error (.assertion 0 128 .r1)
    ∧ indexOf refConfig 296 0 .r3 = .error (.assertion 296 0 .r3) := ⟨rfl, rfl, rfl⟩

/-! ### The ports (R25, R139, R140) -/

theorem test_ports_at_reset : reqReady State.reset = true ∧ reqValid State.reset = false ∧ statusPort State.reset = 0#2
    ∧ rspValid State.reset = [false] ∧ rspCode State.reset = none ∧ fbAddr State.reset = none := ⟨rfl, rfl, rfl, rfl, rfl, rfl⟩
/-- A refused word right after a response: rsp_valid falls at its Accept event and pulses again (R140). -/
theorem test_two_responses_two_pulses :
    look rspValid (step { State.reset with reqs := [0x3000#16], trace := [.accept 0x3000#16, .respond .invalidState] })
      = some [false, true, false, true, false]
    ∧ pulses false [false, true, false, true, false] = 2 := by decide
theorem test_fb_addr : fbAddr (driven .idle [.stream 4] 3 []) = some 3#13 := by decide
/-- The host's moves are for req_ready = 1 (R69): a word waiting during a request is not at the port, and none can be added. -/
theorem test_host_has_no_move_in_a_run :
    reqValid { running .idle [.wait] [] [] with reqs := [0x5000#16] } = false
    ∧ reqWord { running .idle [.wait] [] [] with reqs := [0x5000#16] } = none
    ∧ present 0x5000#16 (running .idle [.wait] [] []) = none := by decide
theorem test_present_when_ready : (present 0x5000#16 (resting .idle)).map (fun t => (reqValid t, reqWord t))
    = some (true, some 0x5000#16) := by decide

/-! ### How the host places a word -/

theorem test_fetch_request : look (fun t => t.trace) (step (State.reset.withFetchWord 16 0x4000))
    = some [.accept 0x4000#16, .respond .invalidState] := by decide

theorem test_fetch_command : look progOf (step ((running .idle [] [.ok] []).withFetchWord 8 0x20))
    = some (some [.cmd .masterActivate]) := by decide

/-! ### Witnesses: a state and operands that meet the hypotheses of each statement together -/

/-- A state that meets the invariant at the first action of UPDATE FULL. -/
def updating (as : List Ack) (vs : List Bit) : State :=
  { resting .idle with cur := some (runOf .updateFull (expand tiny .updateFull)), acks := as, polls := vs,
                       trace := [.accept 0x3000#16] }

/-- `updating` once DISPLAY_UPDATE_CTRL2's byte is the next action. -/
def updatingDriven (as : List Ack) : State :=
  { updating as [] with
      dc := some 0#1,
      cur := some { runOf .updateFull (expand tiny .updateFull) with framed := true },
      trace := [.accept 0x3000#16, .line .dc 0#1 .ok] }

/-- INIT from Sleeping, before its first micro-operation. -/
def waking : State :=
  { resting .sleeping with cur := some (runOf .init (expand tiny .init)), trace := [.accept 0x1000#16] }

/-- A run whose last action raised `e` at micro-operation `k`. -/
def failing (req : Instr) (k : Nat) (e : Failure) (d : DeviceState) : State :=
  { resting d with cur := some { runOf req (expand tiny req) with mpc := k, raised := some e } }

theorem tiny_wf : tiny.wf = true := by decide

theorem inv_resting {d : DeviceState} (h : d ≠ .busy) : Inv (resting d) :=
  ⟨tiny_wf, rfl, fun _ => h, nofun⟩

theorem inv_updating (as : List Ack) (vs : List Bit) : Inv (updating as vs) := by
  refine ⟨tiny_wf, rfl, nofun, fun r hr => ?_⟩
  cases hr
  exact ⟨rfl, rfl, by decide, fun _ => rfl, fun _ => nofun, fun h => absurd rfl h, fun _ => rfl,
    fun _ => .inl rfl, nofun⟩

theorem inv_updatingDriven (as : List Ack) : Inv (updatingDriven as) := by
  refine ⟨tiny_wf, rfl, nofun, fun r hr => ?_⟩
  cases hr
  exact ⟨rfl, rfl, by decide, fun _ => rfl, fun _ _ => rfl, fun h => absurd rfl h, fun _ => rfl,
    fun _ => .inl rfl, nofun⟩

theorem inv_waking : Inv waking := by
  refine ⟨tiny_wf, rfl, nofun, fun r hr => ?_⟩
  cases hr
  exact ⟨rfl, rfl, by decide, fun _ => ⟨rfl, rfl⟩, fun _ => nofun, fun h => absurd rfl h, fun _ => rfl,
    fun _ => .inl rfl, nofun⟩

/-- UPDATE FULL at its WAIT, and INIT at its first WAIT, with a failure raised. -/
theorem inv_failing_update (e : Failure) : Inv (failing .updateFull 3 e .idle) := by
  refine ⟨tiny_wf, rfl, nofun, fun r hr => ?_⟩
  cases hr
  exact ⟨rfl, rfl, (by decide : 3 ≤ (expand tiny .updateFull).length), nofun, nofun, fun _ => (by decide : 3 < (expand tiny .updateFull).length), nofun,
    fun _ => .inl rfl, fun _ => rfl⟩

theorem inv_failing_init (e : Failure) : Inv (failing .init 7 e .uninitialized) := by
  refine ⟨tiny_wf, rfl, nofun, fun r hr => ?_⟩
  cases hr
  exact ⟨rfl, rfl, (by decide : 7 ≤ (expand tiny .init).length), nofun, nofun, fun _ => (by decide : 7 < (expand tiny .init).length), nofun,
    fun _ => .inr rfl, fun _ => rfl⟩

theorem wit_CodesRoundTrip : opcodesDistinct tiny.op = true
    ∧ Instr.wellFormed tiny (.clear 0xFF#8) = true ∧ encode tiny.op (.clear 0xFF#8) = some (.request 0x40FF#16)
    ∧ Instr.wellFormed tiny (.illegal 0x4C00#16) = true ∧ encode tiny.op (.illegal 0x4C00#16) = some (.request 0x4C00#16)
    ∧ Instr.wellFormed tiny (.displayUpdateCtrl2 0xC7#8) = true
    ∧ encode tiny.op (.displayUpdateCtrl2 0xC7#8) = some (.command [0x22#8, 0xC7#8]) := by decide

theorem wit_IllegalWordsAnsweredIllegal : (resting .sleeping).cur = none
    ∧ opcField 0x0800#16 = 0#4 ∧ 6#4 ≤ opcField 0x6000#16 ∧ rsvField 0x1400#16 ≠ 0#2 ∧ profField 0x2300#16 = 3#2
    ∧ (profField 0x1100#16 ≠ 0#2 ∧ opcField 0x1100#16 = 1#4) ∧ (valueField 0x5001#16 ≠ 0#8 ∧ opcField 0x5001#16 ≠ 4#4)
    ∧ isIllegalWord 0x5000#16 = false ∧ isIllegalWord 0x40FF#16 = false := by decide

theorem wit_UnlistedCommandBytesRefused : ∀ c : PanelCmd, opcodeOf refOpcodes c ≠ 0x00#8 := by
  intro c; cases c <;> decide

theorem wit_StatusAndResultCodes : rspCode { resting .idle with rsp := some .illegal } = some 4#3
    ∧ rspCode { resting .idle with rsp := some .ok } = some 0#3 := by decide

/-- Each kind of step, from a state that meets the invariant: accepting, acting, aborting. -/
theorem wit_StepKeepsLifecycle : (Inv { resting .idle with reqs := [0x3000#16] }
      ∧ ∃ t, step { resting .idle with reqs := [0x3000#16] } = .next t)
    ∧ (Inv (updating [.ok] []) ∧ ∃ t, step (updating [.ok] []) = .next t)
    ∧ (Inv (failing .init 7 .timeout .uninitialized) ∧ ∃ t, step (failing .init 7 .timeout .uninitialized) = .next t) :=
  ⟨⟨⟨by decide, by decide, fun _ => by decide, nofun⟩, _, rfl⟩, ⟨inv_updating _ _, _, rfl⟩,
   ⟨inv_failing_init _, _, rfl⟩⟩

theorem wit_StepKeepsTraceAgreement : TraceAgrees (updating [.ok] []) ∧ ∃ t, step (updating [.ok] []) = .next t :=
  ⟨⟨rfl, rfl, rfl, rfl⟩, _, rfl⟩

theorem wit_StepKeepsBytesFramed : Inv (updatingDriven [.ok]) ∧ TraceAgrees (updatingDriven [.ok])
    ∧ bytesFramed (updatingDriven [.ok]).trace = true ∧ ∃ t, step (updatingDriven [.ok]) = .next t :=
  ⟨inv_updatingDriven _, ⟨rfl, rfl, rfl, rfl⟩, rfl, _, rfl⟩

theorem wit_InvariantStateNeverStops : Inv (updatingDriven []) := inv_updatingDriven _

theorem wit_NeverBusyBetweenRequests : tiny.wf = true ∧ Memory.wf tiny.fbLen [(3, 0x7F#8)] = true
    ∧ look (fun t => t.cur) (runSteps 1
      { State.reset with cfg := tiny, fb := [(3, 0x7F#8)], reqs := [0x6000#16], acks := [.fail], polls := [1#1] })
      = some none := by decide

theorem wit_ConfigAndFramebufferAreNeverWritten : ∃ t, exec .swReset (running .idle [.swReset] [.ok] []) = .next t := ⟨_, rfl⟩

theorem wit_StepAddsFewEvents : ∃ t, step { resting .sleeping with reqs := [0x6000#16] } = .next t := ⟨_, rfl⟩

theorem wit_RspWrittenWithRespond : (∃ t, step (failing .updateFull 3 .timeout .idle) = .next t)
    ∧ TraceAgrees (updating [.ok] []) ∧ TraceAgrees State.reset :=
  ⟨⟨_, rfl⟩, ⟨rfl, rfl, rfl, rfl⟩, ⟨rfl, rfl, rfl, rfl⟩⟩

/-- Each transition. -/
theorem wit_DevTransitions : look State.dev (step (failing .updateFull 3 .busError .idle)) = some .uninitialized
    ∧ look State.dev (step (driven .idle [.cmd .masterActivate] 0 [.ok])) = some .busy
    ∧ look State.dev (step (running .busy [.wait] [] [0#1])) = some .idle
    ∧ look State.dev (step (running .idle [.setdev .sleeping] [] [])) = some .sleeping := by decide

theorem wit_OnlyInitLeavesSleeping : (Inv { resting .sleeping with reqs := [0x4000#16] }
      ∧ ∃ t, step { resting .sleeping with reqs := [0x4000#16] } = .next t)
    ∧ Inv waking ∧ waking.dev = .sleeping ∧ ∃ t, step waking = .next t :=
  ⟨⟨⟨by decide, by decide, fun _ => by decide, nofun⟩, _, rfl⟩, inv_waking, rfl, _, rfl⟩

theorem wit_IndexOfInBoundsOrAsserts : tiny.wf = true
    ∧ (15 < logicalWidth tiny .r0 ∧ 1 < logicalHeight tiny .r0) ∧ ¬(16 < logicalWidth tiny .r0 ∧ 1 < logicalHeight tiny .r0)
    ∧ (1 < logicalWidth tiny .r1 ∧ 15 < logicalHeight tiny .r1) ∧ ¬(2 < logicalWidth tiny .r1 ∧ 15 < logicalHeight tiny .r1) := by
  decide

theorem wit_IndexOfInjective : tiny.wf = true ∧ indexOf tiny 9 1 .r0 = .ok (3, 0x40#8) := ⟨by decide, rfl⟩

theorem wit_RamPlaceMatchesLayout : tiny.wf = true ∧ 15 < tiny.width ∧ 1 < tiny.height := by decide

theorem wit_HostStoreWritesOneByte : (running .idle [.wait] [] []).cur ≠ none ∧ (resting .idle).cfg.fbLen ≤ 4
    ∧ (resting .idle).cur = none ∧ 3 < (resting .idle).cfg.fbLen
    ∧ Memory.wf (resting .idle).cfg.fbLen (resting .idle).fb = true := by decide

theorem wit_StreamOutsideFramebufferFaults :
    (driven .idle [.stream 5] 4 []).cur = some { runOf .updateFull [.stream 5] with framed := true, sub := 4 }
    ∧ 4 < 5 ∧ (driven .idle [.stream 5] 4 []).cfg.fbLen ≤ 4 := by decide

theorem wit_StepRunsInstruction : ((resting .idle).cur = none ∧ { resting .idle with reqs := [0x5000#16] }.reqs = 0x5000#16 :: [])
    ∧ (running .idle [.wait] [] []).cur = some (runOf .updateFull [.wait]) ∧ (runOf .updateFull [.wait]).raised = none
    ∧ (runOf .updateFull [.wait]).prog[(runOf .updateFull [.wait]).mpc]? = some .wait := by decide

/-- At the end of the program, and after a failure. -/
theorem wit_CompletionAnswersOk : (running .idle [] [] []).cur = some (runOf .updateFull [])
    ∧ (runOf .updateFull []).raised = none ∧ (runOf .updateFull []).mpc = (runOf .updateFull []).prog.length
    ∧ (failing .updateFull 3 .timeout .idle).cur.bind Run.raised = some .timeout := by decide

theorem wit_AbortEndsRequest : (failing .updateFull 3 .busError .idle).cur.bind Run.raised = some .busError
    ∧ (failing .updateFull 3 .timeout .idle).cur.bind Run.raised = some .timeout := by decide

/-- Both failures, in INIT and in another request. -/
theorem wit_DevAfterFailure : (Inv (failing .updateFull 3 .busError .idle) ∧ ∃ t, step (failing .updateFull 3 .busError .idle) = .next t)
    ∧ (Inv (failing .updateFull 3 .timeout .idle) ∧ ∃ t, step (failing .updateFull 3 .timeout .idle) = .next t)
    ∧ (Inv (failing .init 7 .timeout .uninitialized) ∧ ∃ t, step (failing .init 7 .timeout .uninitialized) = .next t) :=
  ⟨⟨inv_failing_update _, _, rfl⟩, ⟨inv_failing_update _, _, rfl⟩, ⟨inv_failing_init _, _, rfl⟩⟩

theorem wit_LegalRequestsStartTheirRun : [Instr.init, .writeAndUpdateFull, .writeAndUpdateFast, .writeAndUpdatePartial, .updateFull,
      .updateFast, .updatePartial, .clear 0xFF#8, .sleep].all Instr.isLegalRequest = true
    ∧ (resting .idle).cur = none ∧ (resting .idle).dev = .idle ∧ (resting .sleeping).cur = none := by decide

theorem wit_InvalidStateCheck : Instr.isLegalRequest .sleep = true ∧ Instr.sleep ≠ .init ∧ (resting .sleeping).cur = none
    ∧ (resting .sleeping).dev = .sleeping ∧ (resting .uninitialized).dev = .uninitialized := by decide

/-- A legal word and an Illegal one, presented at construction and to another Uninitialized state. -/
theorem wit_FirstRequestMustBeInit : State.reset.cur = none ∧ State.reset.dev = .uninitialized
    ∧ { State.reset with reqs := [0x5000#16] }.reqs = 0x5000#16 :: []
    ∧ (resting .uninitialized).cur = none ∧ (resting .uninitialized).dev = .uninitialized
    ∧ 0x5000#16 ≠ 0x1000#16 ∧ isIllegalWord 0x5000#16 = false ∧ isIllegalWord 0x1400#16 = true :=
  ⟨rfl, rfl, rfl, rfl, rfl, by decide, rfl, rfl⟩

theorem wit_RequestPortHandshake : Instr.isRequest .init = true ∧ (running .idle [.wait] [] []).cur ≠ none
    ∧ (resting .idle).cur = none ∧ (resting .idle).reqs = [] := by decide

theorem wit_MicroOpsOutsideRunRefused : Instr.isRequest .wait = false ∧ Instr.isRequest .swReset = false
    ∧ (resting .idle).cur = none := by decide

theorem wit_LineWrite : (running .idle [.line .rst 1#1] [.ok] []).cur = some (runOf .updateFull [.line .rst 1#1])
    ∧ nextAck (running .idle [.line .rst 1#1] [.ok] []) = .ok ∧ nextAck (running .idle [.line .dc 0#1] [.fail] []) = .fail := by
  decide

theorem wit_CommandDrivesDc : (running .idle [.cmd .writeLut] [.ok] []).cur = some (runOf .updateFull [.cmd .writeLut])
    ∧ (runOf .updateFull [.cmd .writeLut]).framed = false
    ∧ nextAck (running .idle [.cmd .writeLut] [.ok] []) = .ok ∧ nextAck (running .idle [.cmd .writeLut] [.fail] []) = .fail := by
  decide

theorem wit_CommandByte :
    (driven .idle [.cmd .writeLut] 0 [.ok]).cur = some { runOf .updateFull [.cmd .writeLut] with framed := true }
    ∧ (driven .idle [.cmd .writeLut] 0 [.ok]).dc = some 0#1
    ∧ (driven .idle [.cmd .writeLut] 0 [.ok]).cfg.dcCmdLevel = 0#1
    ∧ (look State.dev (exec (.cmd .writeLut) (driven .idle [.cmd .writeLut] 0 [.fail]))).isSome = true
    ∧ nextAck (driven .idle [.cmd .writeLut] 0 [.ok]) = .ok ∧ nextAck (driven .idle [.cmd .writeLut] 0 [.fail]) = .fail := by
  decide

theorem wit_PayloadDrivesDc : (running .idle [.data [0x01#8]] [.ok] []).cur = some (runOf .updateFull [.data [0x01#8]])
    ∧ (runOf .updateFull [.data [0x01#8]]).framed = false
    ∧ payloadBytes [] (.data [0x01#8]) = some [0x01#8] ∧ payloadBytes [] (.fill 0xFF#8 2) = some [0xFF#8, 0xFF#8]
    ∧ payloadBytes [(1, 0xAA#8)] (.stream 2) = some [0x00#8, 0xAA#8]
    ∧ nextAck (running .idle [.data [0x01#8]] [.ok] []) = .ok ∧ nextAck (running .idle [.data [0x01#8]] [.fail] []) = .fail := by
  decide

/-- A byte that is not the last, the last byte, and a rejected one. -/
theorem wit_PayloadByte :
    (driven .idle [.stream 4] 2 [.ok]).cur = some { runOf .updateFull [.stream 4] with framed := true, sub := 2 }
    ∧ (driven .idle [.stream 4] 2 [.ok]).dc = some 0#1
    ∧ payloadBytes (driven .idle [.stream 4] 2 [.ok]).fb (.stream 4) = some [0x00#8, 0x00#8, 0x00#8, 0x00#8]
    ∧ streamInside (driven .idle [.stream 4] 2 [.ok]).cfg (.stream 4) = true
    ∧ [0x00#8, 0x00#8, 0x00#8, 0x00#8][2]? = some 0x00#8 ∧ [0x00#8, 0x00#8, 0x00#8, 0x00#8][3]? = some 0x00#8
    ∧ nextAck (driven .idle [.stream 4] 2 [.ok]) = .ok ∧ nextAck (driven .idle [.stream 4] 3 [.fail]) = .fail := by decide

theorem wit_FillIsDataOfCopies : (.fill 0xA5#8 4) ∈ expand tiny (.clear 0xA5#8) ∧ (.fill 0x00#8 4) ∈ expand tiny .writeAndUpdateFull := by
  decide

theorem wit_PayloadRunWritesEveryByte :
    (running .idle [.fill 0xFF#8 4] (List.replicate 5 .ok) []).cur = some (runOf .updateFull [.fill 0xFF#8 4])
    ∧ (runOf .updateFull [.fill 0xFF#8 4]).prog[0]? = some (.fill 0xFF#8 4)
    ∧ payloadBytes [] (.fill 0xFF#8 4) = some [0xFF#8, 0xFF#8, 0xFF#8, 0xFF#8] ∧ streamInside tiny (.fill 0xFF#8 4) = true
    ∧ (running .idle [.fill 0xFF#8 4] (List.replicate 5 .ok) []).acks
        = List.replicate (1 + [0xFF#8, 0xFF#8, 0xFF#8, 0xFF#8].length) .ok ++ [] := by decide

theorem wit_LineFailsFloating : look (fun t => t.rstFloats) (exec (.line .rst 1#1) (running .idle [.line .rst 1#1] [.fail] [])) = some true := by
  decide

theorem wit_DelayEmitsItsEvent : (running .idle [.delay .t1] [] []).cur = some (runOf .updateFull [.delay .t1]) := rfl

/-- A WAIT with two busy polls made. -/
def waited (vs : List Bit) : State :=
  { running .busy [.wait] [] vs with cur := some { runOf .updateFull [.wait] with sub := 2 } }

/-- Not busy; busy below the bound; busy at the bound. -/
theorem wit_WaitPoll : (running .busy [.wait] [] [0#1]).cur = some (runOf .updateFull [.wait])
    ∧ nextLevel (running .busy [.wait] [] [0#1]) ≠ (running .busy [.wait] [] [0#1]).cfg.busyActiveLevel
    ∧ nextLevel (running .busy [.wait] [] [1#1]) = (running .busy [.wait] [] [1#1]).cfg.busyActiveLevel
    ∧ (runOf .updateFull [.wait]).sub + 1 ≠ (running .busy [.wait] [] [1#1]).cfg.waitBound
    ∧ nextLevel (waited [1#1]) = (waited [1#1]).cfg.busyActiveLevel
    ∧ (waited [1#1]).cur.map (fun r => r.sub + 1) = some (waited [1#1]).cfg.waitBound := by decide

theorem wit_StuckBusyTimesOut : (running .busy [.wait] [] [1#1, 1#1, 1#1, 0#1]).cur = some (runOf .updateFull [.wait])
    ∧ (runOf .updateFull [.wait]).prog[0]? = some .wait ∧ 1 ≤ tiny.waitBound
    ∧ (running .busy [.wait] [] [1#1, 1#1, 1#1, 0#1]).polls
        = List.replicate tiny.waitBound tiny.busyActiveLevel ++ [0#1] := by decide

theorem wit_SetdevWritesDev : (running .idle [.setdev .sleeping] [] []).cur = some (runOf .updateFull [.setdev .sleeping]) := rfl

theorem wit_HwResetDrivesResetLine : (running .uninitialized [.hwReset] [.ok, .ok, .ok, .fail] []).cur = some (runOf .updateFull [.hwReset])
    ∧ (running .uninitialized [.hwReset] [.ok, .ok, .ok, .fail] []).acks = .ok :: .ok :: .ok :: [.fail]
    ∧ (runOf .updateFull [.hwReset]).raised = none ∧ (runOf .updateFull [.hwReset]).prog[0]? = some .hwReset := by decide

theorem wit_SendIsCmdThenData : (running .idle [.send .swReset []] [.ok] []).cur = some (runOf .updateFull [.send .swReset []])
    ∧ nextAck (running .idle [.send .swReset []] [.ok] []) = .ok := by decide

theorem wit_PanelCommandsStartTheirSend : commandName .writeRedData = some .writeRedData
    ∧ (running .idle [.writeRedData] [.ok] []).cur = some (runOf .updateFull [.writeRedData])
    ∧ nextAck (running .idle [.writeRedData] [.ok] []) = .ok
    ∧ (running .idle [.writeRedData] [.fail] []).cur = some (runOf .updateFull [.writeRedData])
    ∧ nextAck (running .idle [.writeRedData] [.fail] []) = .fail := by decide

/-- An empty payload, and a payload of four bytes. -/
theorem wit_PanelCommandTransaction : commandName .masterActivate = some .masterActivate
    ∧ (running .idle [.masterActivate] [.ok, .ok] []).cur = some (runOf .updateFull [.masterActivate])
    ∧ (runOf .updateFull [.masterActivate]).raised = none
    ∧ (runOf .updateFull [.masterActivate]).prog[0]? = some .masterActivate ∧ tiny.wf = true
    ∧ rowPayload tiny [] .updateFull .masterActivate = []
    ∧ (running .idle [.masterActivate] [.ok, .ok] []).acks = .ok :: .ok :: []
    ∧ commandName .writeRedData = some .writeRedData
    ∧ (runOf .updateFull [.writeRedData]).prog[0]? = some .writeRedData
    ∧ rowPayload tiny [] .updateFull .writeRedData = [0x00#8, 0x00#8, 0x00#8, 0x00#8]
    ∧ (running .idle [.writeRedData] (List.replicate 7 .ok) []).acks
        = List.replicate (3 + [0x00#8, 0x00#8, 0x00#8, 0x00#8].length) .ok ++ [] := by decide

theorem wit_ResetLineAndLutOnlyInInit : (.line .rst 0#1) ∈ expand tiny .init ∧ (.cmd .writeLut) ∈ expand tiny .init := by decide

theorem wit_RedPlaneOnlyInWriteAndUpdate : (.cmd .writeRedData) ∈ expand tiny .writeAndUpdateFast := by decide

theorem wit_ExpansionsAreWellFormed : tiny.wf = true ∧ (.stream 4) ∈ expand tiny .writeAndUpdatePartial := by decide

/-- A state from which UPDATE FULL runs to Ok. -/
def healthy : State :=
  { resting .idle with reqs := [0x3000#16], acks := [.ok, .ok, .ok, .ok, .ok, .ok], polls := [0#1] }

theorem wit_HealthyRequestRunsToOk : Instr.isLegalRequest .updateFull = true ∧ healthy.cur = none
    ∧ healthy.reqs = encodeRequest .updateFull :: [] ∧ healthy.dev = .idle ∧ healthy.cfg.wf = true
    ∧ healthy.acks = List.replicate (totalAcks (expand healthy.cfg .updateFull)) .ok ++ []
    ∧ healthy.polls = List.replicate (totalPolls (expand healthy.cfg .updateFull)) (~~~healthy.cfg.busyActiveLevel) ++ [] := by
  decide

theorem wit_RunningStepDecreasesWork : Inv (updating [.ok] []) ∧ (updating [.ok] []).cur ≠ none
    ∧ ∃ t, step (updating [.ok] []) = .next t := ⟨inv_updating _ _, by decide, _, rfl⟩

theorem wit_EveryRequestResponds : Inv (updating [] []) ∧ (updating [] []).cur ≠ none := ⟨inv_updating _ _, by decide⟩

/-- Program P2's start with WAIT_BOUND = 3. -/
def stuck : State :=
  { resting .uninitialized with reqs := [0x1000#16], acks := [.ok, .ok, .ok], polls := [1#1, 1#1, 1#1] }

theorem wit_InitOnStuckPanelTimesOut : stuck.cur = none ∧ stuck.reqs = 0x1000#16 :: [] ∧ stuck.acks = .ok :: .ok :: .ok :: []
    ∧ 1 ≤ stuck.cfg.waitBound
    ∧ stuck.polls = List.replicate stuck.cfg.waitBound stuck.cfg.busyActiveLevel ++ [] := by decide

end Sys2Proof.Tests
end

section
/-! PROOFS. The family of spec/20_memory.md. The layout contract (R41 to R43), and the dual of `exec_acted` and `step_cases`: what a
step that faults can be. -/

namespace Sys2Proof.Machine

/-! ### The two outcomes of `index_of` -/

/-- On a valid coordinate `index_of` names the byte and the mask of the native pixel (R41, R42). -/
theorem indexOf_of_valid {c x y r} (h : validCoord c x y r = true) :
    indexOf c x y r = .ok (pixelByte c (nativeCoord c x y r).1 (nativeCoord c x y r).2, pixelMask (nativeCoord c x y r).1) :=
  if_pos h

/-- On an invalid coordinate `index_of` is the assertion (R43). -/
theorem indexOf_of_invalid {c x y r} (h : ¬ validCoord c x y r = true) : indexOf c x y r = .error (.assertion x y r) :=
  if_neg h

/-- The mask of a native column is a single bit, the leftmost column's the highest (R41). -/
theorem pixelMask_eq (px : Nat) : pixelMask px = 1#8 <<< (7 - px % 8) :=
  mask_eq (px % 8) (Nat.mod_lt px (by decide))

/-! ### What faults -/

/-- The one fault of STREAM's byte: the index is outside the framebuffer (R48). -/
theorem streamByte_error {s i f} (h : streamByte s i = .error f) : s.cfg.fbLen ≤ i ∧ f = .framebufferOutOfRange i := by
  unfold streamByte Memory.read at h
  by_cases hi : i < s.cfg.fbLen
  · simp [hi] at h
  · simp only [if_neg hi] at h
    cases h
    exact ⟨Nat.le_of_not_lt hi, rfl⟩

/-- A micro-operation faults only while a request runs. -/
theorem inRun_fault {s k f} (h : inRun s k = .fault f) : ∃ r, s.cur = some r ∧ k r = .fault f := by
  unfold inRun at h
  split at h
  · cases h
  · exact ⟨_, ‹_›, h⟩

/-- A payload action faults only on reading the byte it is about to write (R76 to R78). -/
theorem payloadAction_fault {n byteAt s r f} (h : payloadAction n byteAt s r = .fault f) :
    r.framed = true ∧ r.sub < n ∧ byteAt r.sub = .error f := by
  unfold payloadAction at h
  split at h
  · split at h
    · split at h
      · cases h
        exact ⟨‹_›, ‹_›, ‹_›⟩
      · cases h
    · cases h
  · cases h

/-- A request at the port is accepted or held (R69). -/
theorem request_ne_fault (i s f) : request i s ≠ .fault f := by
  unfold request
  split <;> exact nofun

/-- CMD never faults (R75). -/
theorem execCmd_ne_fault {c s f} : execCmd c s ≠ .fault f := by
  intro h
  obtain ⟨_, _, h⟩ := inRun_fault h
  cases h

/-- SEND never faults by itself: its first action is CMD's (R84). -/
theorem execSend_ne_fault {c bs s f} : execSend c bs s ≠ .fault f := execCmd_ne_fault

/-- LINE never faults (R79). -/
theorem execLine_ne_fault {l v s f} : execLine l v s ≠ .fault f := by
  intro h
  obtain ⟨_, _, h⟩ := inRun_fault h
  cases h

/-- All a fault of an instruction can be: STREAM about to write a byte that lies outside the framebuffer (R48). -/
theorem exec_fault {i s f} (h : exec i s = .fault f) :
    ∃ n r, i = .stream n ∧ s.cur = some r ∧ r.framed = true ∧ r.sub < n ∧ s.cfg.fbLen ≤ r.sub
      ∧ f = .framebufferOutOfRange r.sub := by
  by_cases hq : i.isRequest = true
  · rw [exec_request hq] at h
    exact absurd h (request_ne_fault _ _ _)
  cases i <;> simp only [Instr.isRequest, not_true_eq_false] at hq
  case stream n =>
    obtain ⟨r, hc, h⟩ := inRun_fault h
    obtain ⟨hframed, hsub, hbyte⟩ := payloadAction_fault h
    obtain ⟨hout, rfl⟩ := streamByte_error hbyte
    exact ⟨n, r, rfl, hc, hframed, hsub, hout, rfl⟩
  case data | fill =>
    obtain ⟨_, _, h⟩ := inRun_fault h
    obtain ⟨_, _, hbyte⟩ := payloadAction_fault h
    cases hbyte
  case delay | wait | setdev =>
    obtain ⟨_, _, h⟩ := inRun_fault h
    cases h
  case writeBwData =>
    obtain ⟨_, _, h⟩ := inRun_fault h
    exact absurd h execCmd_ne_fault
  case cmd | writeRedData => exact absurd h execCmd_ne_fault
  case line | hwReset => exact absurd h execLine_ne_fault
  all_goals exact absurd h execSend_ne_fault

/-- Only a step that executes an instruction faults, with that instruction's fault (R74). -/
theorem step_fault {s f} (h : step s = .fault f) : ∃ i t, nextAction s = .execute i t ∧ exec i t = .fault f := by
  unfold step at h
  split at h
  case h_2 i t hact => exact ⟨i, t, hact, h⟩
  all_goals cases h

/-- Every fault of a step is a framebuffer read out of range. -/
theorem step_fault_outOfRange {s f} (h : step s = .fault f) : ∃ a, f = .framebufferOutOfRange a := by
  obtain ⟨i, t, _, hexec⟩ := step_fault h
  obtain ⟨_, r, _, _, _, _, _, hf⟩ := exec_fault hexec
  exact ⟨r.sub, hf⟩

/-! ### R43 -/

/-- Settles O20: the native pixel of a valid coordinate is on the panel, so its byte is inside the framebuffer; and the only fault a
step raises is STREAM's. -/
theorem indexOfInBoundsOrAsserts : Obligations.IndexOfInBoundsOrAsserts := by
  unfold Obligations.IndexOfInBoundsOrAsserts
  refine ⟨fun c x y r hwf => ⟨fun hx hy => ?_, fun hinvalid => ?_⟩, fun s x y r hstep => ?_⟩
  · have hvalid : validCoord c x y r = true := validCoord_iff.mpr ⟨hx, hy⟩
    obtain ⟨hpx, hpy⟩ := nativeCoord_bounds hvalid
    exact ⟨_, _, indexOf_of_valid hvalid, pixelByte_lt hwf hpx hpy, _, by omega, pixelMask_eq _⟩
  · exact indexOf_of_invalid (validCoord_iff.not.mpr hinvalid)
  · obtain ⟨_, hf⟩ := step_fault_outOfRange hstep
    cases hf

end Sys2Proof.Machine
end

section
/-! PROOFS. The family of spec/30_encoding.md. Which words are Illegal (R62), read off the decoder row by row, how one is answered,
and the codes on the ports. -/

namespace Sys2Proof

/-! ### Illegal words -/

/-- The rows of OPC 0x2 and 0x3 are Illegal for a nonzero VALUE and for PROF = 3, and only then (R59, R60). -/
theorem decodeProfile_eq_illegal_iff {w : Word} {full fast part : Instr} (hfull : full ≠ .illegal w) (hfast : fast ≠ .illegal w)
    (hpart : part ≠ .illegal w) :
    decodeProfile w full fast part = .illegal w ↔ valueField w ≠ 0#8 ∨ profField w = 3#2 := by
  change (if valueField w ≠ 0#8 then Instr.illegal w else if profField w = 0#2 then full else if profField w = 1#2 then fast
    else if profField w = 2#2 then part else .illegal w) = .illegal w ↔ _
  rcases prof_cases (profField w) with hp | hp | hp | hp <;> simp [hp, hfull, hfast, hpart]

/-- The five conditions of R62 as propositions over the fields. -/
theorem isIllegalWord_iff {w : Word} : isIllegalWord w = true ↔
    (opcField w = 0#4 ∨ 6#4 ≤ opcField w) ∨ rsvField w ≠ 0#2 ∨ profField w = 3#2
      ∨ (profField w ≠ 0#2 ∧ (opcField w = 1#4 ∨ opcField w = 4#4 ∨ opcField w = 5#4))
      ∨ (valueField w ≠ 0#8 ∧ opcField w ≠ 4#4) := by
  simp [isIllegalWord, or_assoc]

/-- A word decodes to ILLEGAL exactly when it meets one of the five conditions: the decoder's row for each OPC asks what the
conditions ask of that OPC (R58 to R62). -/
theorem decodeRequest_eq_illegal_iff {w : Word} : decodeRequest w = .illegal w ↔ isIllegalWord w = true := by
  rw [isIllegalWord_iff, decodeRequest_eq]
  by_cases hr : rsvField w = 0#2
  case neg => simp [hr]
  -- INIT, CLEAR and SLEEP ask for PROF = 0, which leaves the condition PROF = 3 nothing to add
  have hprof : profField w = 3#2 ∨ ¬ profField w = 0#2 ↔ ¬ profField w = 0#2 := or_iff_right_of_imp fun h => by simp [h]
  rcases opc_cases (opcField w) with ho | ho | ho | ho | ho | ho | hreserved
  · simp [hr, ho]
  · simp [hr, ho, ← or_assoc, hprof, imp_iff_not_or]
  · simp [hr, ho, decodeProfile_eq_illegal_iff, or_comm]
  · simp [hr, ho, decodeProfile_eq_illegal_iff, or_comm]
  · simp [hr, ho, hprof]
  · simp [hr, ho, ← or_assoc, hprof, imp_iff_not_or]
  · have hne : ∀ k < 6#4, opcField w ≠ k := fun k hk h => by bv_omega
    simp [hr, hreserved, hne]

/-- Decoding gives a legal request or the word back as Illegal. -/
theorem decodeRequest_legal_or_illegal (w : Word) :
    (decodeRequest w).isLegalRequest = true ∨ decodeRequest w = .illegal w := by
  unfold decodeRequest decodePlain decodeProfile
  repeat' split
  all_goals simp [Instr.isLegalRequest, Instr.isRequest]

end Sys2Proof

namespace Sys2Proof.Machine

/-! ### The answer -/

/-- While no request runs a request is accepted and dispatched (R69, R85). -/
theorem request_of_idle {i s} (hc : s.cur = none) : request i s = .next (dispatch i (emit (.accept (encodeRequest i)) s)) := by
  simp [request, hc]

/-- An Illegal word is answered in every `dev`: its Accept and its Respond event, and `rsp` (R62, R67). -/
theorem exec_illegal_of_idle {w : Word} {s : State} (hc : s.cur = none) : exec (.illegal w) s = .next { s with
    rsp := some .illegal, trace := s.trace ++ [.accept w, .respond .illegal] } := by
  rw [exec_request rfl, request_of_idle hc]
  simp [dispatch, respond, emit, encodeRequest, hc]

/-- Settles O3: the decoder's ILLEGAL rows are the five conditions, every other row is a legal request, and dispatch answers an Illegal
word before it looks at `dev`. -/
theorem illegalWordsAnsweredIllegal : Obligations.IllegalWordsAnsweredIllegal := by
  unfold Obligations.IllegalWordsAnsweredIllegal
  refine ⟨fun w => ?_, fun w s hc => exec_illegal_of_idle hc⟩
  rw [← isIllegalWord_iff, ← decodeRequest_eq_illegal_iff]
  exact ⟨id, (decodeRequest_legal_or_illegal w).resolve_right⟩

/-! ### The codes of the ports -/

/-- No result has a code above Illegal's, 4 (R66). -/
theorem resultCode_le (r : Result) : resultCode r ≤ 4#3 := by cases r <;> decide

/-- Settles O7: the tables of R25 and R66, and every code on the response port is a result's. -/
theorem statusAndResultCodes : Obligations.StatusAndResultCodes := by
  unfold Obligations.StatusAndResultCodes
  refine ⟨fun s => ?_, fun s k hk => ?_, rfl, rfl, rfl, rfl, rfl⟩
  · unfold statusPort
    cases s.dev <;> rfl
  · obtain ⟨r, -, rfl⟩ := Option.map_eq_some_iff.mp hk
    exact resultCode_le r

end Sys2Proof.Machine
end

section
/-! PROOFS. The family of spec/40_transport.md. FILL as a DATA of copies and where the expansions use it (R77), and the one step of
DELAY (R80). -/

namespace Sys2Proof.Machine

/-! ### R77: one payload action -/

/-- A payload action asks `byteAt` only for the bytes of its payload (R76 to R78). -/
theorem payloadAction_congr {n : Nat} {f g : Nat → Except Fault Byte} (h : ∀ i < n, f i = g i) (s : State) (r : Run) :
    payloadAction n f s r = payloadAction n g s r := by
  unfold payloadAction
  by_cases hsub : r.sub < n
  · rw [h r.sub hsub]
  · simp only [if_neg hsub]

/-- FILL is DATA of its copies: both are the payload action over `n` bytes that are all `v` (R77). -/
theorem execFill_eq_execData (v : Byte) (n : Nat) (s : State) : execFill v n s = execData (List.replicate n v) s := by
  have hcopies : ∀ i < n, (Except.ok v : Except Fault Byte) = .ok ((List.replicate n v).getD i 0#8) := fun i hi => by
    simp [List.getD_eq_getElem?_getD, hi]
  unfold execFill execData
  rw [List.length_replicate, funext (payloadAction_congr hcopies s)]

/-! ### R77: the uses of FILL -/

/-- SEND fills nothing (R84). -/
@[simp] theorem fill_notMem_sendOps (k bs v n) : .fill v n ∉ sendOps k bs := by simp [mem_sendOps]

/-- SET_WINDOW fills nothing (R88). -/
@[simp] theorem fill_notMem_setWindowOps (c v n) : .fill v n ∉ setWindowOps c := by simp [setWindowOps]

/-- RESET_COUNTER fills nothing (R89). -/
@[simp] theorem fill_notMem_resetCounterOps (c v n) : .fill v n ∉ resetCounterOps c := by simp [resetCounterOps]

/-- UPD fills nothing (R90 to R93). -/
@[simp] theorem fill_notMem_updOps (c p v n) : .fill v n ∉ updOps c p := by
  cases p <;> simp [updOps, activateOps]

/-- INIT fills nothing (R86, R87). -/
@[simp] theorem fill_notMem_initOps (c v n) : .fill v n ∉ initOps c := by simp [initOps, hwResetOps]

/-- SLEEP fills nothing (R96). -/
@[simp] theorem fill_notMem_sleepOps (c v n) : .fill v n ∉ sleepOps c := by simp [sleepOps]

/-- RED_CLEAR fills the red plane: FB_LEN copies of RED_FILL_VALUE (R97). -/
@[simp] theorem fill_mem_redClearOps {c v n} : .fill v n ∈ redClearOps c ↔ v = c.redFillValue ∧ n = c.fbLen := by
  simp [redClearOps]

/-- WRITE_AND_UPDATE fills only in its RED_CLEAR (R94, R97). -/
@[simp] theorem fill_mem_writeAndUpdateOps {c p v n} :
    .fill v n ∈ writeAndUpdateOps c p ↔ c.clearRed = true ∧ v = c.redFillValue ∧ n = c.fbLen := by
  cases hred : c.clearRed <;> simp [writeAndUpdateOps, hred]

/-- CLEAR fills the plane with FB_LEN copies of its byte (R95). -/
@[simp] theorem fill_mem_clearOps {c u v n} : .fill v n ∈ clearOps c u ↔ v = u ∧ n = c.fbLen := by simp [clearOps]

/-- Every FILL of an expansion covers the whole plane (R77). -/
theorem fill_count_of_mem_expand {c i v n} (h : .fill v n ∈ expand c i) : n = c.fbLen := by
  cases i
  case clear => exact (fill_mem_clearOps.mp h).2
  case writeAndUpdateFull | writeAndUpdateFast | writeAndUpdatePartial => exact (fill_mem_writeAndUpdateOps.mp h).2.2
  all_goals simp [expand] at h

/-- Settles O39: FILL and DATA run the same payload action, and only CLEAR and RED_CLEAR fill, each the whole plane. -/
theorem fillIsDataOfCopies : Obligations.FillIsDataOfCopies := by
  unfold Obligations.FillIsDataOfCopies
  exact ⟨execFill_eq_execData, fun _ _ _ _ => fill_count_of_mem_expand⟩

/-! ### R80 -/

/-- Inside a request a micro-operation runs on its run register (R29). -/
theorem inRun_of_running {s r} (h : s.cur = some r) (k : Run → Host.Outcome State Fault Refusal) : inRun s k = k r := by
  simp only [inRun, h]

/-- Finishing moves the run register to the next micro-operation and nothing else (R74). -/
theorem finish_of_running {s r} (h : s.cur = some r) :
    finish s = { s with cur := some { r with mpc := r.mpc + 1, sub := 0, framed := false } } := by
  simp only [finish, mapRun, h, Option.map_some]

/-- Settles O41: DELAY's one step emits its event and finishes. -/
theorem delayEmitsItsEvent : Obligations.DelayEmitsItsEvent := by
  unfold Obligations.DelayEmitsItsEvent
  intro k s r hcur
  have hemit : (emit (.delay k) s).cur = some r := hcur
  change execDelay k s = _
  rw [execDelay, inRun_of_running hcur, finish_of_running hemit]
  rfl

end Sys2Proof.Machine
end

section
/-! PROOFS. The family of spec/41_driver_sequences.md. The resources that belong to INIT alone: the reset line and the panel's LUT
(R99). -/

namespace Sys2Proof.Machine

/-- The micro-operations that R99 leaves to INIT: driving the reset line, and the command that loads a LUT. -/
def drivesResetOrLoadsLut : Instr → Bool
  | .line .rst _ | .cmd .writeLut => true
  | _ => false

/-- Of a SEND, only its command can (R84). -/
@[simp] theorem any_drivesResetOrLoadsLut_sendOps (k bs) :
    (sendOps k bs).any drivesResetOrLoadsLut = drivesResetOrLoadsLut (.cmd k) := by
  cases bs <;> simp [sendOps, drivesResetOrLoadsLut]

/-- SET_WINDOW touches neither (R88). -/
@[simp] theorem any_drivesResetOrLoadsLut_setWindowOps (c) : (setWindowOps c).any drivesResetOrLoadsLut = false := by
  simp [setWindowOps, drivesResetOrLoadsLut]

/-- RESET_COUNTER touches neither (R89). -/
@[simp] theorem any_drivesResetOrLoadsLut_resetCounterOps (c) : (resetCounterOps c).any drivesResetOrLoadsLut = false := by
  simp [resetCounterOps, drivesResetOrLoadsLut]

/-- ACTIVATE touches neither (R90). -/
@[simp] theorem any_drivesResetOrLoadsLut_activateOps (pb) : (activateOps pb).any drivesResetOrLoadsLut = false := by
  simp [activateOps, drivesResetOrLoadsLut]

/-- UPD touches neither, whatever the profile (R91 to R93). -/
@[simp] theorem any_drivesResetOrLoadsLut_updOps (c p) : (updOps c p).any drivesResetOrLoadsLut = false := by
  cases p <;> simp [updOps, drivesResetOrLoadsLut]

/-- RED_CLEAR touches neither (R97). -/
@[simp] theorem any_drivesResetOrLoadsLut_redClearOps (c) : (redClearOps c).any drivesResetOrLoadsLut = false := by
  simp [redClearOps, drivesResetOrLoadsLut]

/-- WRITE_AND_UPDATE touches neither, with or without its RED_CLEAR (R94). -/
@[simp] theorem any_drivesResetOrLoadsLut_writeAndUpdateOps (c p) :
    (writeAndUpdateOps c p).any drivesResetOrLoadsLut = false := by
  cases hred : c.clearRed <;> simp [writeAndUpdateOps, hred, drivesResetOrLoadsLut]

/-- CLEAR touches neither (R95). -/
@[simp] theorem any_drivesResetOrLoadsLut_clearOps (c v) : (clearOps c v).any drivesResetOrLoadsLut = false := by
  simp [clearOps, drivesResetOrLoadsLut]

/-- SLEEP touches neither (R96). -/
@[simp] theorem any_drivesResetOrLoadsLut_sleepOps (c) : (sleepOps c).any drivesResetOrLoadsLut = false := by
  simp [sleepOps, drivesResetOrLoadsLut]

/-- An expansion that drives the reset line or loads a LUT is INIT's (R99). -/
theorem eq_init_of_mem_expand {c i j} (hj : drivesResetOrLoadsLut j = true) (hmem : j ∈ expand c i) : i = .init := by
  have hany : (expand c i).any drivesResetOrLoadsLut = true := List.any_eq_true.mpr ⟨j, hmem, hj⟩
  cases i
  case init => rfl
  all_goals simp [expand] at hany

/-- INIT sends LUT_FULL last, before its closing WAIT (R86, R87). -/
theorem expand_init_sends_lutFull (c) :
    ∃ before, expand c .init = before ++ sendOps .writeLut c.lutFull ++ [.wait, .setdev .idle] := ⟨_, rfl⟩

/-- No expansion reads LUT_FAST (R99). -/
theorem expand_lutFast_irrelevant (c i lut) : expand { c with lutFast := lut } i = expand c i := by
  cases i <;> rfl

/-- Settles O53: no block of an expansion but INIT's own drives the reset line or sends WRITE_LUT, INIT sends it with LUT_FULL, and
LUT_FAST is read nowhere. -/
theorem resetLineAndLutOnlyInInit : Obligations.ResetLineAndLutOnlyInInit := by
  unfold Obligations.ResetLineAndLutOnlyInInit
  intro c i
  obtain ⟨before, hinit⟩ := expand_init_sends_lutFull c
  exact ⟨fun ⟨_, hline⟩ => eq_init_of_mem_expand rfl hline, eq_init_of_mem_expand rfl, ⟨before, _, hinit⟩,
    expand_lutFast_irrelevant c i⟩

end Sys2Proof.Machine
end

section
/-! PROOFS. The family of spec/60_exceptions.md. The InvalidState check of dispatch (R127): which requests it answers, and that INIT
passes it. -/

namespace Sys2Proof

/-- A legal request is a request row (R58). -/
theorem Instr.isRequest_of_isLegalRequest {i : Instr} (hl : i.isLegalRequest = true) : i.isRequest = true := by
  cases i
  case illegal => rfl
  all_goals exact hl

end Sys2Proof

namespace Sys2Proof.Machine

/-- A legal request meets the InvalidState check alone: it is answered, or its run starts (R85, R127). -/
theorem dispatch_of_isLegalRequest {i : Instr} (hl : i.isLegalRequest = true) (s : State) : dispatch i s =
    if i ≠ .init ∧ (s.dev = .uninitialized ∨ s.dev = .sleeping) then respond .invalidState s
    else { s with cur := some ⟨i, expand s.cfg i, 0, 0, false, none⟩ } := by
  cases i
  case illegal => cases hl
  all_goals rfl

/-- A legal request other than INIT, executed from Uninitialized or Sleeping, is accepted and answered InvalidState; nothing else
changes (R127). -/
theorem exec_of_invalidState {i : Instr} {s : State} (hl : i.isLegalRequest = true) (hne : i ≠ .init) (hc : s.cur = none)
    (hdev : s.dev = .uninitialized ∨ s.dev = .sleeping) : exec i s = .next { s with
      rsp := some .invalidState, trace := s.trace ++ [.accept (encodeRequest i), .respond .invalidState] } := by
  rw [exec_request (Instr.isRequest_of_isLegalRequest hl), request_of_idle hc, dispatch_of_isLegalRequest hl,
    if_pos ⟨hne, hdev⟩]
  simp [respond, emit, hc]

/-- INIT, executed while no request runs, is accepted and its run started, whatever `dev` is (R127). -/
theorem exec_init_of_idle {s : State} (hc : s.cur = none) : exec .init s = .next { s with
    trace := s.trace ++ [.accept (encodeRequest .init)], cur := some ⟨.init, expand s.cfg .init, 0, 0, false, none⟩ } := by
  have hpasses (dev : Prop) : ¬ (Instr.init ≠ .init ∧ dev) := fun h => h.1 rfl
  rw [exec_request rfl, request_of_idle hc, dispatch_of_isLegalRequest rfl, if_neg (hpasses _)]
  rfl

/-- Settles O30: the eight legal requests other than INIT meet dispatch's check, and INIT passes it with its run started and no
response. -/
theorem invalidStateCheck : Obligations.InvalidStateCheck := by
  unfold Obligations.InvalidStateCheck
  exact ⟨fun _ _ => exec_of_invalidState, fun _ hc => ⟨_, exec_init_of_idle hc, nofun, rfl⟩⟩

end Sys2Proof.Machine
end

section
/-! PROOFS. The family of spec/70_reset_and_hazards.md. The first step after construction: the acceptance of the word at the request
port, which must be INIT's (R146, R147). -/

namespace Sys2Proof

/-! ### The decoder loses no bit of its word -/

/-- Two words with the same four fields are the same word (R57). -/
theorem word_eq_of_fields {u w : Word} (hopc : opcField w = opcField u) (hrsv : rsvField w = rsvField u)
    (hprof : profField w = profField u) (hvalue : valueField w = valueField u) : u = w := by
  rw [← BitVec.toNat_inj, toNat_fields w, hopc, hrsv, hprof, hvalue, ← toNat_fields]

/-- In the rows of OPC 0x2 and 0x3 no bit is lost, if each profile's request has the word with its PROF and VALUE = 0 (R59, R60). -/
theorem encodeRequest_decodeProfile {w : Word} {full fast part : Instr}
    (hfull : profField w = 0#2 → valueField w = 0#8 → encodeRequest full = w)
    (hfast : profField w = 1#2 → valueField w = 0#8 → encodeRequest fast = w)
    (hpart : profField w = 2#2 → valueField w = 0#8 → encodeRequest part = w) :
    encodeRequest (decodeProfile w full fast part) = w := by
  unfold decodeProfile
  split_ifs with hvalue h0 h1 h2
  · rfl
  · exact hfull h0 (not_not.mp hvalue)
  · exact hfast h1 (not_not.mp hvalue)
  · exact hpart h2 (not_not.mp hvalue)
  · rfl

/-- Every word decodes to a request whose word it is: a legal row fixes all four fields, and an Illegal word is kept (R57 to R62). -/
theorem encodeRequest_decodeRequest (w : Word) : encodeRequest (decodeRequest w) = w := by
  rw [decodeRequest_eq]
  by_cases hr : rsvField w = 0#2
  case neg => rw [if_pos hr]; rfl
  rw [if_neg (not_not.mpr hr)]
  split_ifs with hinit hplain hwrite hupdate hclear hprof hsleep hplain
  · exact word_eq_of_fields hinit hr hplain.1 hplain.2
  · rfl
  · apply encodeRequest_decodeProfile <;> exact fun hp hv => word_eq_of_fields hwrite hr hp hv
  · apply encodeRequest_decodeProfile <;> exact fun hp hv => word_eq_of_fields hupdate hr hp hv
  · obtain ⟨hrsvClear, hopcClear, hprofClear, hvalueClear⟩ := clear_fields (valueField w)
    exact word_eq_of_fields (hclear.trans hopcClear.symm) (hr.trans hrsvClear.symm) (hprof.trans hprofClear.symm) hvalueClear.symm
  · rfl
  · exact word_eq_of_fields hsleep hr hplain.1 hplain.2
  · rfl
  · rfl

/-- Only INIT's word decodes to INIT (R58). -/
theorem eq_of_decodeRequest_eq_init {w : Word} (h : decodeRequest w = .init) : w = 0x1000#16 := by
  rw [← encodeRequest_decodeRequest w, h]
  rfl

end Sys2Proof

namespace Sys2Proof.Machine

/-! ### A step that takes a word from the port -/

/-- While no request runs, a step takes the host's first word and executes its request (R69, R74). -/
theorem step_of_word {s : State} {w : Word} {rest : List Word} (hc : s.cur = none) (hw : s.reqs = w :: rest) :
    step s = exec (decodeRequest w) { s with reqs := rest } := by
  simp only [step, nextAction, hc, hw]

/-- Its next state: the Accept event of that word, then dispatch (R69, R85). -/
theorem step_accepts_word {s : State} {w : Word} {rest : List Word} (hc : s.cur = none) (hw : s.reqs = w :: rest) :
    step s = .next (dispatch (decodeRequest w) (emit (.accept w) { s with reqs := rest })) := by
  rw [step_of_word hc hw, exec_request (decodeRequest_isRequest w), request_of_idle (s := { s with reqs := rest }) hc,
    encodeRequest_decodeRequest]

/-- Dispatch takes no word from the host (R85). -/
@[simp] theorem dispatch_reqs (i : Instr) (s : State) : (dispatch i s).reqs = s.reqs := by
  rcases dispatch_cases i s with h | h | h <;> rw [h]

/-- Dispatch removes no event: it responds, or leaves the trace as it is (R27, R85). -/
theorem dispatch_trace_append (i : Instr) (s : State) : ∃ evs, (dispatch i s).trace = s.trace ++ evs := by
  rcases dispatch_cases i s with h | h | h <;> rw [h]
  · exact ⟨_, rfl⟩
  · exact ⟨_, rfl⟩
  · exact ⟨[], (List.append_nil _).symm⟩

/-! ### R147 -/

/-- Settles O31: a legal word that is not INIT's decodes to a legal request that is not INIT, which fails dispatch's check while `dev`
is Uninitialized, and an Illegal word is answered before that check. -/
theorem firstRequestMustBeInit : Obligations.FirstRequestMustBeInit := by
  unfold Obligations.FirstRequestMustBeInit
  intro s w rest hc hdev hw
  rw [step_of_word hc hw]
  constructor
  · intro hne hnotIllegal
    have hlegal : (decodeRequest w).isLegalRequest = true := (decodeRequest_legal_or_illegal w).resolve_right fun h => by
      simp [decodeRequest_eq_illegal_iff.mp h] at hnotIllegal
    have hinit : decodeRequest w ≠ .init := mt eq_of_decodeRequest_eq_init hne
    have hanswer := exec_of_invalidState (s := { s with reqs := rest }) hlegal hinit hc (.inl hdev)
    rwa [encodeRequest_decodeRequest] at hanswer
  · intro hillegal
    rw [decodeRequest_eq_illegal_iff.mpr hillegal]
    exact exec_illegal_of_idle (s := { s with reqs := rest }) hc

/-! ### R146 -/

/-- Settles O8: the registers and pins are read off the state at construction, and its first step emits the word's Accept event into
the empty trace, which dispatch only extends. -/
theorem resetIsConstruction : Obligations.ResetIsConstruction := by
  unfold Obligations.ResetIsConstruction
  refine ⟨rfl, rfl, rfl, rfl, rfl, rfl, fun l => ?_, fun w rest => ⟨_, step_accepts_word rfl rfl, ?_, ?_⟩⟩
  · cases l <;> rfl
  · rw [dispatch_reqs, emit_reqs]
  · obtain ⟨evs, htrace⟩ := dispatch_trace_append (decodeRequest w) (emit (.accept w) { State.reset with reqs := rest })
    rw [htrace]
    rfl

end Sys2Proof.Machine
end

section
/-! PROOFS. Codes of instructions, both ways (R57 to R62, R71, R72). The row of a request word is read off its fields, the row of a
command off its opcode byte. -/

namespace Sys2Proof

/-! ### Request words -/

/-- CLEAR's word has its row's fields, so it decodes to CLEAR with the same fill byte (R60). -/
theorem decodeRequest_clear (v : Byte) : decodeRequest (0x40#8 ++ v) = .clear v := by
  obtain ⟨hrsv, hopc, hprof, hvalue⟩ := clear_fields v
  simp [decodeRequest_eq, hrsv, hopc, hprof, hvalue]

/-- The word of a well-formed request decodes to it (R57 to R62). -/
theorem decodeRequest_encodeRequest {c : Config} {i : Instr} (hq : i.isRequest = true) (hw : i.wellFormed c = true) :
    decodeRequest (encodeRequest i) = i := by
  cases i
  case clear v => exact decodeRequest_clear v
  case illegal w => exact decodeRequest_eq_illegal_iff.mpr hw
  case init | writeAndUpdateFull | writeAndUpdateFast | writeAndUpdatePartial | updateFull | updateFast | updatePartial | sleep => rfl
  all_goals cases hq

/-- Settles O2: the decoder has only request rows, and each keeps all four fields of its word. -/
theorem decodedWordsEncodeBack : Obligations.DecodedWordsEncodeBack := by
  unfold Obligations.DecodedWordsEncodeBack
  exact fun w => ⟨Machine.decodeRequest_isRequest w, encodeRequest_decodeRequest w⟩

/-! ### Command bytes -/

/-- A row with a command name is the row of that name, and DISPLAY_UPDATE_CTRL2 alone has an operand (R115). -/
theorem eq_commandInstr_of_commandName {i : Instr} {k : PanelCmd} (h : commandName i = some k) :
    (k ≠ .displayUpdateCtrl2 ∧ i = commandInstr 0#8 k) ∨ (k = .displayUpdateCtrl2 ∧ ∃ pb, i = .displayUpdateCtrl2 pb) := by
  cases i <;> cases h
  case displayUpdateCtrl2 pb => exact .inr ⟨rfl, pb, rfl⟩
  all_goals exact .inl ⟨nofun, rfl⟩

/-- The rows without a command name are the requests and the micro-operations. -/
theorem commandName_eq_none_iff {i : Instr} : commandName i = none ↔ i.isRequest = true ∨ i.isMicro = true := by
  cases i <;> simp [commandName, Instr.isRequest, Instr.isMicro]

/-- A request's code is its word (R57). -/
theorem encode_of_isRequest {o : Opcodes} {i : Instr} (h : i.isRequest = true) : encode o i = some (.request (encodeRequest i)) :=
  if_pos h

/-- DISPLAY_UPDATE_CTRL2's code carries its profile byte (R115). -/
theorem encode_displayUpdateCtrl2 (o : Opcodes) (pb : Byte) :
    encode o (.displayUpdateCtrl2 pb) = some (.command [opcodeOf o .displayUpdateCtrl2, pb]) := rfl

/-- The code of every other command is its opcode byte (R72). -/
theorem encode_commandInstr (o : Opcodes) {k : PanelCmd} (h : k ≠ .displayUpdateCtrl2) :
    encode o (commandInstr 0#8 k) = some (.command [opcodeOf o k]) := by
  cases k
  case displayUpdateCtrl2 => exact absurd rfl h
  all_goals rfl

/-- A micro-operation has no code (R71). -/
theorem encode_of_isMicro {o : Opcodes} {i : Instr} (h : i.isMicro = true) : encode o i = none := by
  cases i
  case cmd | data | fill | stream | line | delay | hwReset | wait | setdev | send => rfl
  all_goals cases h

/-- Under distinct opcodes a command's byte decodes to its row (R72). -/
theorem decodeCommand_opcode {o : Opcodes} (ho : opcodesDistinct o = true) {k : PanelCmd} (hk : k ≠ .displayUpdateCtrl2)
    (rest : List Byte) : decodeCommand o (opcodeOf o k :: rest) = .ok (commandInstr 0#8 k, rest) := by
  simp only [decodeCommand, find_opcode o ho]

/-- DISPLAY_UPDATE_CTRL2's byte takes the byte after it as its payload (R115). -/
theorem decodeCommand_displayUpdateCtrl2 {o : Opcodes} (ho : opcodesDistinct o = true) (pb : Byte) (rest : List Byte) :
    decodeCommand o (opcodeOf o .displayUpdateCtrl2 :: pb :: rest) = .ok (.displayUpdateCtrl2 pb, rest) := by
  simp only [decodeCommand, find_opcode o ho]

/-- Settles O1: a request's word has its row's fields, and a command's byte is found among distinct opcodes. -/
theorem codesRoundTrip : Obligations.CodesRoundTrip := by
  unfold Obligations.CodesRoundTrip
  intro c i k ho hw he
  by_cases hq : i.isRequest = true
  · cases (encode_of_isRequest hq).symm.trans he
    exact congrArg _ (decodeRequest_encodeRequest hq hw)
  cases hn : commandName i with
  | none =>
    cases (encode_of_isMicro ((commandName_eq_none_iff.mp hn).resolve_left hq)).symm.trans he
  | some name =>
    rcases eq_commandInstr_of_commandName hn with ⟨hne, rfl⟩ | ⟨-, pb, rfl⟩
    · cases (encode_commandInstr c.op hne).symm.trans he
      simp [decode, decodeCommand_opcode ho hne, Except.map]
    · cases (encode_displayUpdateCtrl2 c.op pb).symm.trans he
      simp [decode, decodeCommand_displayUpdateCtrl2 ho, Except.map]

/-- Settles O5: requests and commands have a code, and the rest are the micro-operations. -/
theorem onlyMicroOpsHaveNoCode : Obligations.OnlyMicroOpsHaveNoCode := by
  unfold Obligations.OnlyMicroOpsHaveNoCode
  refine fun o i => ⟨fun he => ?_, encode_of_isMicro⟩
  by_contra hm
  by_cases hq : i.isRequest = true
  · cases (encode_of_isRequest hq).symm.trans he
  cases hn : commandName i with
  | none => exact (commandName_eq_none_iff.mp hn).elim hq hm
  | some name =>
    rcases eq_commandInstr_of_commandName hn with ⟨hne, rfl⟩ | ⟨-, pb, rfl⟩
    · cases (encode_commandInstr o hne).symm.trans he
    · cases (encode_displayUpdateCtrl2 o pb).symm.trans he

/-- Settles O6: the search over the vocabulary finds no name for the byte. -/
theorem unlistedCommandBytesRefused : Obligations.UnlistedCommandBytesRefused := by
  unfold Obligations.UnlistedCommandBytesRefused
  intro o b rest hb
  have hnone : commandOf o b = none := by simp [commandOf, List.find?_eq_none, hb]
  simp only [decodeCommand, hnone]

/-- Settles O4: each word's fields and each byte's place in REF's map are read off by the decoder. -/
theorem writtenOutWordsDecode : Obligations.WrittenOutWordsDecode := by
  unfold Obligations.WrittenOutWordsDecode
  decide

end Sys2Proof
end

section
/-! PROOFS. The one step of each instruction, as the whole next state. Every arm of `exec` is one of the shared operations of
spec/40_transport.md, so each operation gets one equation for an accepted and one for a rejected write, and the arms cite these. -/

namespace Sys2Proof.Machine

/-! ### Operations on the run register of a running request (R29) -/

/-- Marking DC as driven changes that bit alone (R75, R76). -/
theorem markFramed_of_running {s r} (h : s.cur = some r) : markFramed s = { s with cur := some { r with framed := true } } := by
  simp only [markFramed, mapRun, h, Option.map_some]

/-- Counting a byte or a poll changes `sub` alone (R29, R30). -/
theorem countOne_of_running {s r} (h : s.cur = some r) : countOne s = { s with cur := some { r with sub := r.sub + 1 } } := by
  simp only [countOne, mapRun, h, Option.map_some]

/-- Raising a failure marks the run with it (R128). -/
theorem raise_of_running {s r} (h : s.cur = some r) (e : Failure) :
    raise e s = { s with cur := some { r with raised := some e } } := by
  simp only [raise, mapRun, h, Option.map_some]

/-- The spliced micro-operations take the place of the current one in the program (R84). -/
theorem splice_of_running {s r} (h : s.cur = some r) (ops : List Instr) : splice ops s = { s with
    cur := some { r with prog := r.prog.take r.mpc ++ ops ++ r.prog.drop (r.mpc + 1), sub := 0, framed := false } } := by
  simp only [splice, mapRun, h, Option.map_some]

/-- Splicing starts no run. -/
theorem splice_cur_of_idle {s} (h : s.cur = none) (ops : List Instr) : (splice ops s).cur = none := by
  rw [splice_cur, h, Option.map_none]

/-- Outside a request micro-operations are refused. -/
theorem inRun_of_idle {s} (h : s.cur = none) (k) : inRun s k = .refused .noRequestRunning := by
  simp only [inRun, h]

/-! ### One line write (R79) -/

/-- A line write answered ok goes on from the register set. -/
theorem writeLine_of_ok {l v k s} (ha : nextAck s = .ok) :
    writeLine l v k s = k (setLine l v (emit (.line l v .ok) (dropAck s))) := by
  simp only [writeLine, ha]

/-- A line write answered fail raises BusError and floats the pin, whatever was to follow it. -/
theorem writeLine_of_fail {l v k s r} (hc : s.cur = some r) (ha : nextAck s = .fail) : writeLine l v k s = { s with
    rstFloats := if l = .rst then true else s.rstFloats, dcFloats := if l = .dc then true else s.dcFloats,
    acks := s.acks.tail, drawn := s.drawn + 1, cur := some { r with raised := some .busError },
    trace := s.trace ++ [.line l v .fail] } := by
  simp only [writeLine, ha]
  rw [raise_of_running (r := r) (by simpa using hc)]
  cases l <;> rfl

/-- The DC write of CMD, DATA, FILL and STREAM, answered ok, marks DC as driven (R75, R76). -/
theorem driveDc_of_ok {v s r} (hc : s.cur = some r) (ha : nextAck s = .ok) : writeLine .dc v markFramed s = { s with
    dc := some v, dcFloats := false, acks := s.acks.tail, drawn := s.drawn + 1, cur := some { r with framed := true },
    trace := s.trace ++ [.line .dc v .ok] } := by
  rw [writeLine_of_ok ha, markFramed_of_running (r := r) (by simpa using hc)]
  rfl

/-- Answered fail, it raises BusError and leaves the DC register (R28, R75, R76). -/
theorem driveDc_of_fail {v s r} (hc : s.cur = some r) (ha : nextAck s = .fail) : writeLine .dc v markFramed s = { s with
    dcFloats := true, acks := s.acks.tail, drawn := s.drawn + 1, cur := some { r with raised := some .busError },
    trace := s.trace ++ [.line .dc v .fail] } :=
  writeLine_of_fail hc ha

/-- LINE is one line write that finishes (R79). -/
theorem exec_line {l v s r} (hc : s.cur = some r) : exec (.line l v) s = .next (writeLine l v finish s) :=
  inRun_of_running hc _

/-- LINE answered ok: the register holds the level (R79). -/
theorem exec_line_of_ok {l v s r} (hc : s.cur = some r) (ha : nextAck s = .ok) : exec (.line l v) s = .next { s with
    rst := if l = .rst then some v else s.rst, dc := if l = .dc then some v else s.dc,
    rstFloats := if l = .rst then false else s.rstFloats, dcFloats := if l = .dc then false else s.dcFloats,
    acks := s.acks.tail, drawn := s.drawn + 1, cur := some { r with mpc := r.mpc + 1, sub := 0, framed := false },
    trace := s.trace ++ [.line l v .ok] } := by
  rw [exec_line hc, writeLine_of_ok ha, finish_of_running (r := r) (by simpa using hc)]
  cases l <;> rfl

/-- After a line write answered fail the pin is at any level (R28). -/
theorem pinLevel_of_floats {l s} (h : lineFloats l s = true) : pinLevel l s = Config.freePin l s.drawn := by
  unfold pinLevel
  cases lineReg l s <;> simp [h]

/-- Settles O34: the two answers of the line write LINE is. -/
theorem lineWrite : Obligations.LineWrite := by
  unfold Obligations.LineWrite
  intro l v s r hc
  refine ⟨exec_line_of_ok hc, fun ha => ?_, fun ha t ht => ?_⟩
  · rw [exec_line hc, writeLine_of_fail hc ha]
  · rw [exec_line hc, writeLine_of_fail hc ha] at ht
    cases ht
    apply pinLevel_of_floats
    cases l <;> rfl

/-! ### One byte write (R47, R49) -/

/-- Once DC was driven, a byte carries its level. -/
theorem byteLevel_of_dc {s d} (h : s.dc = some d) : byteLevel s = d := by
  simp only [byteLevel, h]

/-- A byte write answered ok goes on. -/
theorem writeByte_of_ok {b k s d} (hd : s.dc = some d) (ha : nextAck s = .ok) :
    writeByte b k s = k (emit (.byte d b .ok) (dropAck s)) := by
  simp only [writeByte, ha, byteLevel_of_dc hd]

/-- A byte write answered fail raises BusError, whatever was to follow it. -/
theorem writeByte_of_fail {b k s r d} (hc : s.cur = some r) (hd : s.dc = some d) (ha : nextAck s = .fail) :
    writeByte b k s = { s with
      acks := s.acks.tail, drawn := s.drawn + 1, cur := some { r with raised := some .busError },
      trace := s.trace ++ [.byte d b .fail] } := by
  simp only [writeByte, ha, byteLevel_of_dc hd]
  rw [raise_of_running (r := r) (by simpa using hc)]
  rfl

/-! ### CMD (R75) -/

/-- CMD before its DC write: the line goes to the command level. -/
theorem exec_cmd_undriven {c s r} (hc : s.cur = some r) (hf : r.framed = false) :
    exec (.cmd c) s = .next (writeLine .dc s.cfg.dcCmdLevel markFramed s) := by
  change execCmd c s = _
  simp [execCmd, inRun_of_running hc, commandAction, hf]

/-- CMD after its DC write: the opcode byte, which moves `dev` for a trigger. -/
theorem exec_cmd_driven {c s r} (hc : s.cur = some r) (hf : r.framed = true) : exec (.cmd c) s =
    .next (writeByte (opcodeOf s.cfg.op c) (fun t => finish (setDev (devAfterCommand c t.dev) t)) s) := by
  change execCmd c s = _
  simp [execCmd, inRun_of_running hc, commandAction, hf]

/-- The trigger commands by name (R26). -/
theorem isTrigger_iff {c : PanelCmd} :
    isTrigger c = true ↔ c = .writeBwData ∨ c = .writeRedData ∨ c = .writeLut ∨ c = .masterActivate := by
  cases c <;> simp [isTrigger]

/-- CMD's opcode byte accepted (R75). -/
theorem exec_cmd_byte_of_ok {c s r d} (hc : s.cur = some r) (hf : r.framed = true) (hd : s.dc = some d) (ha : nextAck s = .ok) :
    exec (.cmd c) s = .next { s with
      dev := devAfterCommand c s.dev, acks := s.acks.tail, drawn := s.drawn + 1,
      cur := some { r with mpc := r.mpc + 1, sub := 0, framed := false },
      trace := s.trace ++ [.byte d (opcodeOf s.cfg.op c) .ok] } := by
  rw [exec_cmd_driven hc hf, writeByte_of_ok hd ha, finish_of_running (r := r) (by simpa using hc)]
  rfl

/-- CMD's DC write accepted (R75). -/
theorem exec_cmd_undriven_of_ok {c s r} (hc : s.cur = some r) (hf : r.framed = false) (ha : nextAck s = .ok) :
    exec (.cmd c) s = .next { s with
      dc := some s.cfg.dcCmdLevel, dcFloats := false,
      acks := s.acks.tail, drawn := s.drawn + 1, cur := some { r with framed := true },
      trace := s.trace ++ [.line .dc s.cfg.dcCmdLevel .ok] } := by
  rw [exec_cmd_undriven hc hf, driveDc_of_ok hc ha]

/-- CMD's DC write rejected (R75). -/
theorem exec_cmd_undriven_of_fail {c s r} (hc : s.cur = some r) (hf : r.framed = false) (ha : nextAck s = .fail) :
    exec (.cmd c) s = .next { s with
      dcFloats := true,
      acks := s.acks.tail, drawn := s.drawn + 1, cur := some { r with raised := some .busError },
      trace := s.trace ++ [.line .dc s.cfg.dcCmdLevel .fail] } := by
  rw [exec_cmd_undriven hc hf, driveDc_of_fail hc ha]

/-- Settles O35: CMD before its DC write is that write. -/
theorem commandDrivesDc : Obligations.CommandDrivesDc := by
  unfold Obligations.CommandDrivesDc
  exact fun c s r hc hf => ⟨exec_cmd_undriven_of_ok hc hf, exec_cmd_undriven_of_fail hc hf⟩

/-- Settles O36: CMD after its DC write is one byte write, and a byte at the command level starts a transaction, accepted or not. -/
theorem commandByte : Obligations.CommandByte := by
  unfold Obligations.CommandByte
  intro c s r d hc hf hd
  have hok (ha : nextAck s = .ok) := exec_cmd_byte_of_ok (c := c) hc hf hd ha
  have hfail (ha : nextAck s = .fail) : exec (.cmd c) s = _ :=
    (exec_cmd_driven hc hf).trans (congrArg _ (writeByte_of_fail hc hd ha))
  refine ⟨fun ha => ?_, hfail, fun hlevel t ht => ?_⟩
  · simp only [hok ha, devAfterCommand, isTrigger_iff]
  · subst hlevel
    cases ha : nextAck s with
    | ok =>
      cases (hok ha).symm.trans ht
      rw [busWords_byte, transactions_opcode]
    | fail =>
      cases (hfail ha).symm.trans ht
      rw [busWords_byte, transactions_opcode]

/-! ### DATA, FILL and STREAM (R76 to R78) -/

/-- DATA, FILL and STREAM are one payload action over their bytes; STREAM's are there as far as it stays inside the framebuffer. -/
theorem exec_payload {i bs s r} (hc : s.cur = some r) (hb : payloadBytes s.fb i = some bs) : ∃ byteAt,
    exec i s = payloadAction bs.length byteAt s r
      ∧ (streamInside s.cfg i = true → ∀ k b, bs[k]? = some b → byteAt k = .ok b) := by
  cases i <;> cases hb
  case data =>
    refine ⟨_, inRun_of_running hc _, fun _ k b hk => ?_⟩
    simp [List.getD_eq_getElem?_getD, hk]
  case fill v n =>
    rw [List.length_replicate]
    refine ⟨_, inRun_of_running hc _, fun _ k b hk => ?_⟩
    rw [List.getElem?_replicate] at hk
    split at hk <;> cases hk
    rfl
  case stream n =>
    rw [List.length_map, List.length_range]
    refine ⟨_, inRun_of_running hc _, fun hin k b hk => ?_⟩
    obtain ⟨hkn, rfl⟩ : k < n ∧ Memory.lookup s.fb k = b := by
      simpa [List.getElem?_map, List.getElem?_range, Option.map_eq_some_iff, List.getElem?_eq_some_iff] using hk
    have hlt : k < s.cfg.fbLen := lt_of_lt_of_le hkn (of_decide_eq_true hin)
    simp only [streamByte, Memory.read, if_pos hlt]

/-- A payload action before its DC write: the line goes to the data level. -/
theorem payloadAction_undriven {n byteAt s} {r : Run} (hf : r.framed = false) (hn : n ≠ 0) :
    payloadAction n byteAt s r = .next (writeLine .dc (dcDataLevel s.cfg) markFramed s) := by
  simp [payloadAction, hf, hn]

/-- A payload action after its DC write: byte `sub`. -/
theorem payloadAction_driven {n byteAt s b} {r : Run} (hf : r.framed = true) (hlt : r.sub < n) (hb : byteAt r.sub = .ok b) :
    payloadAction n byteAt s r = .next (writeByte b (if r.sub + 1 = n then finish else countOne) s) := by
  simp [payloadAction, hf, hlt, hb]

/-- A payload byte accepted is counted, and the last one finishes (R76). -/
theorem writePayloadByte_of_ok {b n s r d} (hc : s.cur = some r) (hd : s.dc = some d) (ha : nextAck s = .ok) :
    writeByte b (if r.sub + 1 = n then finish else countOne) s = { s with
      acks := s.acks.tail, drawn := s.drawn + 1,
      cur := some (if r.sub + 1 = n then { r with mpc := r.mpc + 1, sub := 0, framed := false }
                   else { r with sub := r.sub + 1 }),
      trace := s.trace ++ [.byte d b .ok] } := by
  rw [writeByte_of_ok hd ha]
  split
  · rw [finish_of_running (r := r) (by simpa using hc)]
    rfl
  · rw [countOne_of_running (r := r) (by simpa using hc)]
    rfl

/-- Settles O37: a payload action before its DC write is that write. -/
theorem payloadDrivesDc : Obligations.PayloadDrivesDc := by
  unfold Obligations.PayloadDrivesDc
  intro i bs s r hc hf hb hne
  obtain ⟨byteAt, hexec, -⟩ := exec_payload hc hb
  rw [hexec, payloadAction_undriven hf (by simpa using hne)]
  exact ⟨fun ha => congrArg _ (driveDc_of_ok hc ha), fun ha => congrArg _ (driveDc_of_fail hc ha)⟩

/-- Settles O38: a payload action after its DC write is one byte write. -/
theorem payloadByte : Obligations.PayloadByte := by
  unfold Obligations.PayloadByte
  intro i bs s r d b hc hf hd hb hin hbyte
  obtain ⟨byteAt, hexec, hbytes⟩ := exec_payload hc hb
  have hlt : r.sub < bs.length := (List.getElem?_eq_some_iff.mp hbyte).1
  rw [hexec, payloadAction_driven hf hlt (hbytes hin _ _ hbyte)]
  exact ⟨fun ha => congrArg _ (writePayloadByte_of_ok hc hd ha), fun ha => congrArg _ (writeByte_of_fail hc hd ha)⟩

/-- Settles O24: STREAM's payload action faults on a byte outside the framebuffer. -/
theorem streamOutsideFramebufferFaults : Obligations.StreamOutsideFramebufferFaults := by
  unfold Obligations.StreamOutsideFramebufferFaults
  intro n s r hc hf hlt hout
  have hbyte : streamByte s r.sub = .error (.framebufferOutOfRange r.sub) := by
    simp only [streamByte, Memory.read, if_neg (Nat.not_lt.mpr hout)]
  change execStream n s = _
  simp [execStream, inRun_of_running hc, payloadAction, hf, hlt, hbyte]

/-! ### WAIT and SETDEV (R82, R83) -/

/-- WAIT is one poll (R82). -/
theorem exec_wait {s r} (hc : s.cur = some r) : exec .wait s = .next (pollOnce r.sub s) :=
  inRun_of_running hc _

/-- A not-busy poll finishes the WAIT. -/
theorem exec_wait_of_notBusy {s r} (hc : s.cur = some r) (hv : nextLevel s ≠ s.cfg.busyActiveLevel) :
    exec .wait s = .next { s with
      dev := devAfterWait s.dev, polls := s.polls.tail, drawn := s.drawn + 1,
      cur := some { r with mpc := r.mpc + 1, sub := 0, framed := false },
      trace := s.trace ++ [.poll (nextLevel s)] } := by
  rw [exec_wait hc, pollOnce, if_pos hv, finish_of_running (r := r) (by simpa using hc)]
  rfl

/-- A busy poll short of the bound is counted. -/
theorem exec_wait_of_busy {s r} (hc : s.cur = some r) (hv : nextLevel s = s.cfg.busyActiveLevel)
    (hn : r.sub + 1 ≠ s.cfg.waitBound) : exec .wait s = .next { s with
      polls := s.polls.tail, drawn := s.drawn + 1, cur := some { r with sub := r.sub + 1 },
      trace := s.trace ++ [.poll s.cfg.busyActiveLevel] } := by
  rw [exec_wait hc, pollOnce, if_neg (not_not.mpr hv), if_neg hn, hv, countOne_of_running (r := r) (by simpa using hc)]
  rfl

/-- The busy poll that reaches the bound raises Timeout. -/
theorem exec_wait_of_bound {s r} (hc : s.cur = some r) (hv : nextLevel s = s.cfg.busyActiveLevel)
    (hn : r.sub + 1 = s.cfg.waitBound) : exec .wait s = .next { s with
      dev := devAfterWait s.dev, polls := s.polls.tail, drawn := s.drawn + 1,
      cur := some { r with sub := r.sub + 1, raised := some .timeout },
      trace := s.trace ++ [.poll s.cfg.busyActiveLevel] } := by
  rw [exec_wait hc, pollOnce, if_neg (not_not.mpr hv), if_pos hn, hv, countOne_of_running (r := r) (by simpa using hc)]
  rfl

/-- Settles O42: the three branches of one poll. -/
theorem waitPoll : Obligations.WaitPoll := by
  unfold Obligations.WaitPoll
  exact fun s r hc => ⟨exec_wait_of_notBusy hc, exec_wait_of_busy hc, exec_wait_of_bound hc⟩

/-- Settles O44: SETDEV writes `dev` and finishes. -/
theorem setdevWritesDev : Obligations.SetdevWritesDev := by
  unfold Obligations.SetdevWritesDev
  intro d s r hc
  change execSetdev d s = _
  rw [execSetdev, inRun_of_running hc, finish_of_running (r := r) (by simpa using hc)]
  rfl

/-! ### SEND and the panel command rows (R84, R101 to R120) -/

/-- SEND's micro-operations (R84). -/
theorem sendOps_eq (c : PanelCmd) (bs : List Byte) : sendOps c bs = .cmd c :: (if bs = [] then [] else [.data bs]) := by
  cases bs <;> rfl

/-- Settles O46: SEND is CMD's first action from the spliced program. -/
theorem sendIsCmdThenData : Obligations.SendIsCmdThenData := by
  unfold Obligations.SendIsCmdThenData
  intro c bs s r hc
  have hops : sendOps c bs = if bs = [] then [.cmd c] else [.cmd c, .data bs] := by cases bs <;> rfl
  have hsend : exec (.send c bs) s = exec (.cmd c) (splice (sendOps c bs) s) := rfl
  rw [hsend, splice_of_running hc, hops]
  exact ⟨rfl, fun ha => exec_cmd_undriven_of_ok (r := { r with prog := _, sub := 0, framed := false }) rfl rfl ha⟩

/-- Every panel command row is CMD's first action from a program with the row's CMD and payload spliced in (R84, R101 to R120). -/
theorem exec_commandRow {i k s r} (hn : commandName i = some k) (hc : s.cur = some r) :
    exec i s = exec (.cmd k) (splice (.cmd k :: rowTail s.cfg s.fb r.req i) s) := by
  have hsend (bs : List Byte) : execSend k bs s = exec (.cmd k) (splice (.cmd k :: (if bs = [] then [] else [.data bs])) s) := by
    rw [← sendOps_eq]
    rfl
  cases i <;> cases hn
  case writeBwData =>
    change inRun s _ = _
    rw [inRun_of_running hc]
    cases r.req <;> rfl
  case writeRedData => rfl
  all_goals exact hsend _

/-- Settles O47: a row's first action is its CMD's DC write, from the program spliced. -/
theorem panelCommandsStartTheirSend : Obligations.PanelCommandsStartTheirSend := by
  unfold Obligations.PanelCommandsStartTheirSend
  intro i k s r hn hc
  rw [exec_commandRow hn hc, splice_of_running hc]
  exact ⟨fun ha => exec_cmd_undriven_of_ok (r := { r with prog := _, sub := 0, framed := false }) rfl rfl ha,
    fun ha => exec_cmd_undriven_of_fail (r := { r with prog := _, sub := 0, framed := false }) rfl rfl ha⟩

/-! ### Outside a request (log 13) -/

/-- CMD outside a request is refused. -/
theorem execCmd_of_idle {c s} (h : s.cur = none) : execCmd c s = .refused .noRequestRunning := inRun_of_idle h _

/-- So is SEND, whose first action is CMD's. -/
theorem execSend_of_idle {c bs s} (h : s.cur = none) : execSend c bs s = .refused .noRequestRunning :=
  execCmd_of_idle (splice_cur_of_idle h _)

/-- Settles O33: every row that is no request is guarded by `inRun`, directly or after splicing. -/
theorem microOpsOutsideRunRefused : Obligations.MicroOpsOutsideRunRefused := by
  unfold Obligations.MicroOpsOutsideRunRefused
  intro i s hq hc
  cases i <;> simp only [Instr.isRequest, Bool.true_eq_false] at hq
  case cmd | data | fill | stream | line | delay | wait | setdev | writeBwData => exact inRun_of_idle hc _
  case hwReset => exact inRun_of_idle (splice_cur_of_idle hc _) _
  case writeRedData => exact execCmd_of_idle (splice_cur_of_idle hc _)
  all_goals exact execSend_of_idle hc

/-! ### Which step comes next (R69, R74, R85, R100, R128) -/

/-- Inside a run a step executes the current micro-operation. -/
theorem step_of_op {s r i} (hc : s.cur = some r) (hr : r.raised = none) (hi : r.prog[r.mpc]? = some i) : step s = exec i s := by
  simp only [step, nextAction, hc, hr, hi]

/-- A raised failure is taken by the next step. -/
theorem step_of_raised {s r e} (hc : s.cur = some r) (hr : r.raised = some e) : step s = .next (abort e s) := by
  simp only [step, nextAction, hc, hr]

/-- A run at the end of its program is completed by the next step. -/
theorem step_of_end {s r} (hc : s.cur = some r) (hr : r.raised = none) (hend : r.mpc = r.prog.length) :
    step s = .next (complete s) := by
  simp only [step, nextAction, hc, hr, hend, List.getElem?_length]

/-- Settles O25: a word is taken and executed, or the current micro-operation is. -/
theorem stepRunsInstruction : Obligations.StepRunsInstruction := by
  unfold Obligations.StepRunsInstruction
  exact ⟨fun _ _ _ => step_of_word, fun _ _ _ => step_of_op⟩

/-- Settles O26: completion responds Ok, and an abort responds a failure's result, which is never Ok. -/
theorem completionAnswersOk : Obligations.CompletionAnswersOk := by
  unfold Obligations.CompletionAnswersOk
  refine fun s r hc => ⟨fun hr hend => step_of_end hc hr hend, fun e hr => ⟨_, step_of_raised hc hr, rfl, rfl, ?_⟩⟩
  cases e <;> exact nofun

/-- Settles O27: the abort of each failure. -/
theorem abortEndsRequest : Obligations.AbortEndsRequest := by
  unfold Obligations.AbortEndsRequest
  exact fun s r hc => ⟨fun hr => step_of_raised hc hr, fun hr => step_of_raised hc hr⟩

/-- A legal request that passes the pre-check is accepted and its run started (R85). -/
theorem exec_of_passes {i : Instr} {s : State} (hl : i.isLegalRequest = true) (hc : s.cur = none)
    (hpass : i = .init ∨ s.dev = .idle) : exec i s = .next { s with
      trace := s.trace ++ [.accept (encodeRequest i)], cur := some ⟨i, expand s.cfg i, 0, 0, false, none⟩ } := by
  have hcheck : ¬ (i ≠ .init ∧ (s.dev = .uninitialized ∨ s.dev = .sleeping)) := by
    rintro ⟨hne, hdev⟩
    simp [hpass.resolve_left hne] at hdev
  rw [exec_request (Instr.isRequest_of_isLegalRequest hl), request_of_idle hc, dispatch_of_isLegalRequest hl]
  exact congrArg _ (if_neg hcheck)

/-- Settles O29: each legal request passes dispatch's check from Idle, and INIT in any `dev`. -/
theorem legalRequestsStartTheirRun : Obligations.LegalRequestsStartTheirRun := by
  unfold Obligations.LegalRequestsStartTheirRun
  exact fun _ _ => exec_of_passes

/-- While a request runs a request row changes nothing (R69). -/
theorem exec_request_of_running {i s r} (hq : i.isRequest = true) (hc : s.cur = some r) : exec i s = .next s := by
  simp only [exec_request hq, request, hc]

/-- Settles O32: the ports read `cur`, and without a word at the port the sequencer waits. -/
theorem requestPortHandshake : Obligations.RequestPortHandshake := by
  unfold Obligations.RequestPortHandshake
  refine ⟨fun i s hq hne => ?_, fun w s => ⟨fun hne => ?_, fun hc => ?_⟩, fun s hc hw => ?_⟩
  · obtain ⟨r, hc⟩ := Option.ne_none_iff_exists'.mp hne
    exact exec_request_of_running hq hc
  · obtain ⟨r, hc⟩ := Option.ne_none_iff_exists'.mp hne
    simp [present, reqReady, reqValid, reqWord, hc]
  · simp [present, reqReady, hc]
  · simp only [step, nextAction, hc, hw]

end Sys2Proof.Machine
end

section
/-! PROOFS. What every step keeps, from every state: the frame (R18, R37), the events it adds (R74), and the agreement of the registers
with the trace (R27, R28, R31, R67). -/

namespace Sys2Proof.Machine

/-! ### The frame -/

/-- Dispatch writes `rsp`, `cur` and the trace only (R85). -/
theorem dispatch_frame (i : Instr) (s : State) : Frame s (dispatch i s) := by
  rcases dispatch_cases i s with h | h | h <;> rw [h] <;> exact ⟨rfl, rfl, rfl⟩

/-- No instruction writes the configuration or the framebuffer, or takes from the host's words. -/
theorem exec_frame {i s t} (h : exec i s = .next t) : Frame s t := by
  cases hq : i.isRequest with
  | true =>
    rw [exec_request hq] at h
    rcases request_cases h with ⟨_, _, rfl⟩ | ⟨_, rfl⟩
    · exact ⟨rfl, rfl, rfl⟩
    · obtain ⟨hcfg, hfb, hreqs⟩ := dispatch_frame i (emit (.accept (encodeRequest i)) s)
      exact ⟨hcfg, hfb, hreqs⟩
  | false => exact (exec_acted hq h).frame

/-- No step writes the configuration or the framebuffer. -/
theorem step_cfg_fb {s t} (h : step s = .next t) : t.cfg = s.cfg ∧ t.fb = s.fb := by
  rcases step_cases h with ⟨_, rfl⟩ | ⟨_, w, rest, _, rfl⟩ | ⟨_, _, _, _, _, _, hexec⟩
    | ⟨_, _, _, _, _, _, rfl⟩ | ⟨_, _, _, _, rfl⟩ | ⟨_, _, _, _, rfl⟩
  case accept =>
    obtain ⟨hcfg, hfb, _⟩ := dispatch_frame (decodeRequest w) (emit (.accept (encodeRequest (decodeRequest w))) { s with reqs := rest })
    exact ⟨hcfg, hfb⟩
  case act => exact ⟨(exec_frame hexec).cfg, (exec_frame hexec).fb⟩
  all_goals exact ⟨rfl, rfl⟩

/-- Settles O15: every instruction and every step keeps both records. -/
theorem configAndFramebufferAreNeverWritten : Obligations.ConfigAndFramebufferAreNeverWritten := by
  unfold Obligations.ConfigAndFramebufferAreNeverWritten
  refine ⟨fun i s t h => ?_, fun s t h => ?_⟩
  · obtain ⟨hcfg, hfb, hreqs⟩ := exec_frame h
    exact ⟨hcfg, hreqs, fun a => by rw [hcfg, hfb]⟩
  · obtain ⟨hcfg, hfb⟩ := step_cfg_fb h
    exact ⟨hcfg, fun a => by rw [hcfg, hfb]⟩

/-! ### The events inside a request -/

/-- The events that stand inside a request: all but Accept and Respond (R67, R69). -/
def isInner : Event → Bool
  | .accept _ | .respond _ => false
  | .line _ _ _ | .byte _ _ _ | .delay _ | .poll _ => true

/-- An action of a running request adds at most one event, which stands inside the request (R74). -/
theorem Act.events {s t} (h : Act s t) : ∃ evs, t.trace = s.trace ++ evs ∧ evs.length ≤ 1 ∧ ∀ e ∈ evs, isInner e = true := by
  cases h with
  | line l v tr => exact ⟨_, tr, le_rfl, by simp [isInner]⟩
  | quiet evs len tr kind =>
    refine ⟨evs, tr, len, fun e he => ?_⟩
    rcases kind e he with ⟨_, _, rfl⟩ | ⟨_, _, rfl⟩ | ⟨_, rfl⟩ | ⟨_, rfl⟩ <;> rfl

/-- A dispatched request adds no event or a Respond (R85). -/
theorem dispatch_events (i : Instr) (s : State) :
    (dispatch i s).trace = s.trace ∨ ∃ r, (dispatch i s).trace = s.trace ++ [.respond r] := by
  rcases dispatch_cases i s with h | h | h <;> rw [h]
  · exact .inr ⟨_, rfl⟩
  · exact .inr ⟨_, rfl⟩
  · exact .inl rfl

/-- Settles O16: the kinds of step, of which only an acceptance answered at once adds two events. -/
theorem stepAddsFewEvents : Obligations.StepAddsFewEvents := by
  unfold Obligations.StepAddsFewEvents
  intro s t h
  rcases step_cases h with ⟨_, rfl⟩ | ⟨_, w, rest, _, rfl⟩ | ⟨_, _, _, _, _, hq, hexec⟩
    | ⟨_, _, _, _, _, _, rfl⟩ | ⟨_, _, _, _, rfl⟩ | ⟨_, _, _, _, rfl⟩
  case idle | held => exact ⟨[], (List.append_nil _).symm, .inl (Nat.zero_le 1)⟩
  case accept =>
    rcases dispatch_events (decodeRequest w) (emit (.accept (encodeRequest (decodeRequest w))) { s with reqs := rest })
      with htr | ⟨r, htr⟩
    · exact ⟨_, htr, .inl le_rfl⟩
    · exact ⟨_, htr.trans (List.append_assoc ..), .inr ⟨_, r, rfl⟩⟩
  case act =>
    obtain ⟨evs, htr, hlen, _⟩ := (exec_acted hq hexec).act.events
    exact ⟨evs, htr, .inl hlen⟩
  case abort | complete => exact ⟨_, rfl, .inl le_rfl⟩

/-! ### Agreement with the trace -/

/-- An event inside a request sets no result. -/
theorem resultStep_of_isInner {e} (h : isInner e = true) (acc) : resultStep acc e = acc := by
  cases e
  case accept | respond => cases h
  all_goals rfl

/-- An event inside a request leaves it open. -/
theorem openStep_of_isInner {e} (h : isInner e = true) : openStep (some true) e = some true := by
  cases e
  case accept | respond => cases h
  all_goals rfl

/-- An action of a running request answers nothing. -/
theorem Act.lastResult_eq {s t} (h : Act s t) : lastResult t.trace = lastResult s.trace := by
  obtain ⟨evs, htr, hlen, hinner⟩ := h.events
  rcases evs with _ | ⟨e, _ | _⟩
  · rw [htr, List.append_nil]
  · rw [htr, lastResult_snoc, resultStep_of_isInner (hinner e (by simp))]
  · simp at hlen

/-- An action of a running request leaves it open. -/
theorem Act.openAfter_eq {s t} (h : Act s t) (hopen : openAfter s.trace = some true) : openAfter t.trace = some true := by
  obtain ⟨evs, htr, hlen, hinner⟩ := h.events
  rcases evs with _ | ⟨e, _ | _⟩
  · rw [htr, List.append_nil, hopen]
  · rw [htr, openAfter_snoc, hopen, openStep_of_isInner (hinner e (by simp))]
  · simp at hlen

/-- An action of a running request sets a line register with the ok-answered write of that line, and no other (R28). -/
theorem Act.lastLevel_eq {s t} (h : Act s t) (l : Line) (hs : lastLevel l s.trace = lineReg l s) :
    lastLevel l t.trace = lineReg l t := by
  cases h with
  | line l' v tr reg other =>
    rw [tr, lastLevel_snoc]
    by_cases hl : l' = l
    · subst hl
      rw [reg]
      exact if_pos rfl
    · rw [other l (Ne.symm hl), ← hs]
      exact if_neg hl
  | quiet evs len tr kind rst dc =>
    have hreg : lineReg l t = lineReg l s := by cases l <;> assumption
    rw [hreg, ← hs, tr]
    rcases evs with _ | ⟨e, _ | _⟩
    · rw [List.append_nil]
    · rw [lastLevel_snoc]
      rcases kind e (by simp) with ⟨_, _, rfl⟩ | ⟨_, _, rfl⟩ | ⟨_, rfl⟩ | ⟨_, rfl⟩ <;> rfl
    · simp at len

/-- A response to an open request closes it and sets `rsp` (R67). -/
theorem traceAgrees_respond {s} (r : Result) (hrst : lastLevel .rst s.trace = s.rst) (hdc : lastLevel .dc s.trace = s.dc)
    (hopen : openAfter s.trace = some true) : TraceAgrees (respond r s) where
  rst := (lastLevel_snoc ..).trans hrst
  dc := (lastLevel_snoc ..).trans hdc
  rsp := lastResult_snoc ..
  open_ := by rw [respond_trace, openAfter_snoc, hopen]; rfl

/-- An accepted request is open, and dispatch answers it or leaves it running (R69, R85). -/
theorem traceAgrees_dispatch {s} (i : Instr) (hrst : lastLevel .rst s.trace = s.rst) (hdc : lastLevel .dc s.trace = s.dc)
    (hrsp : lastResult s.trace = s.rsp) (hopen : openAfter s.trace = some true) : TraceAgrees (dispatch i s) := by
  rcases dispatch_cases i s with h | h | h <;> rw [h]
  · exact traceAgrees_respond .illegal hrst hdc hopen
  · exact traceAgrees_respond .invalidState hrst hdc hopen
  · exact ⟨hrst, hdc, hrsp, hopen⟩

/-- Settles O11: the kinds of step. -/
theorem stepKeepsTraceAgreement : Obligations.StepKeepsTraceAgreement := by
  unfold Obligations.StepKeepsTraceAgreement
  intro s t ⟨hrst, hdc, hrsp, hopen⟩ h
  rcases step_cases h with ⟨_, rfl⟩ | ⟨hc, w, rest, _, rfl⟩ | ⟨r, hc, _, _, _, hq, hexec⟩
    | ⟨_, _, _, _, _, _, rfl⟩ | ⟨_, hc, f, _, rfl⟩ | ⟨_, hc, _, _, rfl⟩
  case idle | held => exact ⟨hrst, hdc, hrsp, hopen⟩
  case accept =>
    have hopened : openAfter (s.trace ++ [.accept (encodeRequest (decodeRequest w))]) = some true := by
      rw [openAfter_snoc, hopen, hc]
      rfl
    exact traceAgrees_dispatch _ ((lastLevel_snoc ..).trans hrst) ((lastLevel_snoc ..).trans hdc) ((lastResult_snoc ..).trans hrsp) hopened
  case act =>
    obtain ⟨_, hrspEq, hcurEq, hact⟩ := exec_acted hq hexec
    rw [hc] at hopen hcurEq
    exact ⟨hact.lastLevel_eq .rst hrst, hact.lastLevel_eq .dc hdc, by rw [hact.lastResult_eq, hrsp, hrspEq],
      by rw [hcurEq]; exact hact.openAfter_eq hopen⟩
  case abort => exact traceAgrees_respond _ hrst hdc (by rw [setDev_trace, hopen, hc]; rfl)
  case complete => exact traceAgrees_respond _ hrst hdc (by rw [hopen, hc]; rfl)

/-! ### Responses (R31, R140) -/

/-- A dispatched request keeps `rsp` or is answered at once. -/
theorem dispatch_rsp (i : Instr) (s : State) : (dispatch i s).rsp = s.rsp
    ∨ ∃ r, (dispatch i s).rsp = some r ∧ (dispatch i s).cur = none ∧ (dispatch i s).trace.getLast? = some (.respond r) := by
  rcases dispatch_cases i s with h | h | h <;> rw [h]
  · exact .inr ⟨_, rfl, rfl, List.getLast?_concat⟩
  · exact .inr ⟨_, rfl, rfl, List.getLast?_concat⟩
  · exact .inl rfl

/-- The three moves of the request protocol: an Accept opens, a Respond closes, any other event stands inside (R67, R69). -/
theorem openStep_eq_some {acc e b} (h : openStep acc e = some b) :
    (acc = some false ∧ b = true ∧ isAccept e = true ∧ rspValidAt e = false)
    ∨ (acc = some true ∧ b = false ∧ isAccept e = false ∧ rspValidAt e = true)
    ∨ (acc = some true ∧ b = true ∧ isAccept e = false ∧ rspValidAt e = false) := by
  rcases acc with _ | _ | _ <;> cases e <;> cases h <;> simp [isAccept, rspValidAt]

/-- While a request is open, the last event is no Respond. -/
theorem last_not_respond_of_open {tr} (h : openAfter tr = some true) : (tr.map rspValidAt).getLast?.getD false = false := by
  rcases List.eq_nil_or_concat' tr with rfl | ⟨tr, e, rfl⟩
  · rfl
  rw [openAfter_snoc] at h
  rw [List.map_append, List.map_singleton, List.getLast?_concat, Option.getD_some]
  rcases openStep_eq_some h with ⟨_, _, _, he⟩ | ⟨_, hb, _, _⟩ | ⟨_, _, _, he⟩
  · exact he
  · cases hb
  · exact he

/-- Under the request protocol each Respond event is a pulse of its own, and the Accepts are one ahead while a request is open. -/
theorem counts_of_openAfter {tr b} (h : openAfter tr = some b) :
    pulses false (tr.map rspValidAt) = tr.countP rspValidAt
      ∧ tr.countP isAccept = tr.countP rspValidAt + (if b then 1 else 0) := by
  induction tr using List.reverseRecOn generalizing b with
  | nil => cases h; exact ⟨rfl, rfl⟩
  | append_singleton tr e ih =>
    rw [openAfter_snoc] at h
    simp only [List.map_append, List.map_singleton, pulses_append, List.countP_append, List.countP_singleton]
    rcases openStep_eq_some h with ⟨hopen, rfl, ha, hr⟩ | ⟨hopen, rfl, ha, hr⟩ | ⟨hopen, rfl, ha, hr⟩
    · simp [ih hopen, ha, hr, pulses]
    · rw [last_not_respond_of_open hopen]
      simp [ih hopen, ha, hr, pulses]
    · simp [ih hopen, ha, hr, pulses]

/-- Settles O17: only dispatch, completion and the abort write `rsp`, each with its Respond event; and the trace of an agreeing state
keeps the request protocol. -/
theorem rspWrittenWithRespond : Obligations.RspWrittenWithRespond := by
  unfold Obligations.RspWrittenWithRespond
  constructor
  · intro s t h
    rcases step_cases h with ⟨_, rfl⟩ | ⟨_, w, rest, _, rfl⟩ | ⟨_, _, _, _, _, hq, hexec⟩
      | ⟨_, _, _, _, _, _, rfl⟩ | ⟨_, _, _, _, rfl⟩ | ⟨_, _, _, _, rfl⟩
    case idle | held => exact .inl rfl
    case accept => exact dispatch_rsp _ _
    case act => exact .inl (exec_acted hq hexec).rsp
    case abort | complete => exact .inr ⟨_, rfl, rfl, List.getLast?_concat⟩
  · intro s hs
    obtain ⟨hpulses, haccepts⟩ := counts_of_openAfter hs.open_
    rw [pulses_rspValid, hpulses]
    exact ⟨rfl, haccepts⟩

/-! ### `dev` (R25) -/

/-- A line write moves `dev` only if what follows it does. -/
theorem writeLine_dev {k : State → State} (hk : ∀ u, (k u).dev = u.dev) (l v s) : (writeLine l v k s).dev = s.dev := by
  unfold writeLine
  split
  · rw [hk, setLine_dev, emit_dev, dropAck_dev]
  · rw [raise_dev, floatLine_dev, emit_dev, dropAck_dev]

/-- A row that is spliced begins with a line write, which leaves `dev` (R79, R84). -/
theorem exec_dev_of_not_primitive {i s t} (hq : i.isRequest = false) (hp : i.isPrimitive = false) (h : exec i s = .next t) : t.dev = s.dev := by
  have hcmd : ∀ {c ops u}, execCmd c (splice ops u) = .next t → t.dev = u.dev := by
    intro c ops u hexec
    obtain ⟨r, hc, _⟩ := inRun_next hexec
    rw [splice_cur] at hc
    obtain ⟨r₀, hc₀, rfl⟩ := Option.map_eq_some_iff.mp hc
    cases (exec_cmd_undriven (c := c) hc rfl).symm.trans hexec
    exact writeLine_dev markFramed_dev _ _ _
  cases i <;> simp only [Instr.isRequest, Instr.isPrimitive, Bool.true_eq_false] at hq hp
  case hwReset =>
    obtain ⟨_, _, hnext⟩ := inRun_next h
    cases hnext
    exact writeLine_dev finish_dev _ _ _
  case writeBwData =>
    obtain ⟨_, _, hnext⟩ := inRun_next h
    exact hcmd hnext
  all_goals exact hcmd h

/-- How `dev` moves when a micro-operation finishes (R75, R82, R83). -/
theorem devAfterOp_cases (d : DeviceState) (i : Instr) : devAfterOp d i = d
    ∨ (d = .idle ∧ devAfterOp d i = .busy ∧ ∃ c, i = .cmd c ∧ isTrigger c = true)
    ∨ (d = .busy ∧ devAfterOp d i = .idle ∧ i = .wait)
    ∨ i = .setdev (devAfterOp d i) := by
  cases i
  case cmd c =>
    by_cases h : isTrigger c = true ∧ d = .idle
    · exact .inr (.inl ⟨h.2, if_pos h, c, rfl, h.1⟩)
    · exact .inl (if_neg h)
  case wait =>
    by_cases h : d = .busy
    · exact .inr (.inr (.inl ⟨h, if_pos h, rfl⟩))
    · exact .inl (if_neg h)
  case setdev => exact .inr (.inr (.inr rfl))
  all_goals exact .inl rfl

/-- A step of a micro-operation leaves `dev`, or moves it as the micro-operation does when it finishes. -/
theorem PrimStep.dev_eq {s r i t} (h : PrimStep s r i t) : t.dev = s.dev ∨ t.dev = devAfterOp s.dev i := by
  cases h with
  | failed cur dev => exact .inl dev
  | driven un k cur dev dc => exact .inl dev
  | counted fr lt cur dev dc => exact .inl dev
  | polled w lt cur dev dc => exact .inl dev
  | timedOut w cur dev => subst w; exact .inr dev
  | finished cur dev => exact .inr dev

/-- Dispatch leaves `dev` (R85). -/
@[simp] theorem dispatch_dev (i : Instr) (s : State) : (dispatch i s).dev = s.dev := by
  rcases dispatch_cases i s with h | h | h <;> rw [h]

/-- Settles O18: outside a run `dev` stays; inside, the abort moves it, or a micro-operation of the program does. -/
theorem devTransitions : Obligations.DevTransitions := by
  unfold Obligations.DevTransitions
  intro s t h
  rcases step_cases h with ⟨_, rfl⟩ | ⟨_, w, rest, _, rfl⟩ | ⟨r, hc, hr, i, hi, hq, hexec⟩
    | ⟨_, _, _, _, _, _, rfl⟩ | ⟨r, hc, f, hf, rfl⟩ | ⟨_, _, _, _, rfl⟩
  case idle | held | complete => exact .inl rfl
  case accept => exact .inl (dispatch_dev _ _)
  case abort =>
    cases f with
    | busError => exact .inr ⟨r, hc, .inl ⟨hf, rfl⟩⟩
    | timeout => exact .inl rfl
  case act =>
    cases hp : i.isPrimitive with
    | false => exact .inl (exec_dev_of_not_primitive hq hp hexec)
    | true =>
      rcases (exec_prim hc hp hexec).dev_eq with hdev | hdev
      · exact .inl hdev
      rcases devAfterOp_cases s.dev i with heq | ⟨hidle, hbusy, c, rfl, htrigger⟩ | ⟨hbusy, hidle, rfl⟩ | hset
      · exact .inl (hdev.trans heq)
      · exact .inr ⟨r, hc, .inr (.inl ⟨hr, hidle, hdev.trans hbusy, c, hi, isTrigger_iff.mp htrigger⟩)⟩
      · exact .inr ⟨r, hc, .inr (.inr (.inl ⟨hr, hbusy, hdev.trans hidle, hi⟩))⟩
      · exact .inr ⟨r, hc, .inr (.inr (.inr ⟨hr, by rw [hdev, ← hset]; exact hi⟩))⟩

end Sys2Proof.Machine
end

section
/-! PROOFS. The expansions of spec/41_driver_sequences.md, block by block: their operands, their triggers, their transactions on a
healthy panel and their event counts. -/

namespace Sys2Proof.Machine

/-! ### Operands (R76 to R78, R83) -/

/-- A well-formed panel has framebuffer bytes (R9). -/
theorem fbLen_pos {c : Config} (hw : c.wf = true) : 1 ≤ c.fbLen := by
  obtain ⟨_, hwb, hheight⟩ := wf_dims hw
  exact Nat.mul_pos hwb hheight

/-- SEND has a DATA only for a payload (R84). -/
@[simp] theorem all_wellFormed_sendOps (c k bs) : (sendOps k bs).all (Instr.wellFormed c) = true := by
  cases bs <;> rfl

/-- ACTIVATE is well formed (R90). -/
@[simp] theorem all_wellFormed_activateOps (c pb) : (activateOps pb).all (Instr.wellFormed c) = true := rfl

/-- UPD is well formed (R91 to R93). -/
@[simp] theorem all_wellFormed_updOps (c p) : (updOps c p).all (Instr.wellFormed c) = true := by
  cases p
  case fast => simp only [updOps, List.all_append, all_wellFormed_activateOps, all_wellFormed_sendOps, Bool.and_true]
  all_goals rfl

/-- Each block of an expansion is well formed: a FILL has FB_LEN ≥ 1 copies, a STREAM exactly FB_LEN bytes. -/
theorem all_wellFormed_expand {c : Config} (hw : c.wf = true) (i) : (expand c i).all (Instr.wellFormed c) = true := by
  have hcmd (k) : Instr.wellFormed c (.cmd k) = true := rfl
  have hwait : Instr.wellFormed c .wait = true := rfl
  have hfill (v) : Instr.wellFormed c (.fill v c.fbLen) = true := decide_eq_true (fbLen_pos hw)
  have hstream : Instr.wellFormed c (.stream c.fbLen) = true := beq_self_eq_true c.fbLen
  have hwau (p) : (writeAndUpdateOps c p).all (Instr.wellFormed c) = true := by
    cases hred : c.clearRed <;>
      simp [writeAndUpdateOps, redClearOps, setWindowOps, resetCounterOps, hred, hcmd, hfill, hstream, hwait, List.all_append,
        -List.all_eq_true]
  cases i
  case init =>
    have hreset : hwResetOps.all (Instr.wellFormed c) = true := rfl
    have hstart : Instr.wellFormed c (.setdev .uninitialized) = true := rfl
    have hend : Instr.wellFormed c (.setdev .idle) = true := rfl
    simp [expand, initOps, setWindowOps, resetCounterOps, hcmd, hwait, hreset, hstart, hend, -List.all_eq_true]
  case writeAndUpdateFull | writeAndUpdateFast | writeAndUpdatePartial => exact hwau _
  case updateFull => exact all_wellFormed_updOps c .full
  case updateFast => exact all_wellFormed_updOps c .fast
  case updatePartial => exact all_wellFormed_updOps c .part
  case clear v => simp [expand, clearOps, setWindowOps, resetCounterOps, hcmd, hfill, -List.all_eq_true]
  case sleep =>
    have hset : Instr.wellFormed c (.setdev .sleeping) = true := rfl
    simp [expand, sleepOps, hset, -List.all_eq_true]
  all_goals rfl

/-- Settles O55: the eight micro-operations of R21, and each block's operands. -/
theorem expansionsAreWellFormed : Obligations.ExpansionsAreWellFormed := by
  unfold Obligations.ExpansionsAreWellFormed
  exact fun c i j hw hj => ⟨expand_prim hj, List.all_eq_true.mp (all_wellFormed_expand hw i) j hj⟩

/-! ### The red plane (R97) -/

/-- WRITE_AND_UPDATE writes the red plane only in its RED_CLEAR (R94). -/
theorem redData_mem_writeAndUpdateOps {c p} (h : .cmd .writeRedData ∈ writeAndUpdateOps c p) : c.clearRed = true := by
  cases hred : c.clearRed
  case true => rfl
  case false => cases p <;> simp [writeAndUpdateOps, setWindowOps, resetCounterOps, updOps, activateOps, mem_sendOps, hred] at h

/-- Settles O54: WRITE_RED_DATA stands in RED_CLEAR alone. -/
theorem redPlaneOnlyInWriteAndUpdate : Obligations.RedPlaneOnlyInWriteAndUpdate := by
  unfold Obligations.RedPlaneOnlyInWriteAndUpdate
  intro c i h
  cases i
  case writeAndUpdateFull => exact ⟨redData_mem_writeAndUpdateOps h, .inl rfl⟩
  case writeAndUpdateFast => exact ⟨redData_mem_writeAndUpdateOps h, .inr (.inl rfl)⟩
  case writeAndUpdatePartial => exact ⟨redData_mem_writeAndUpdateOps h, .inr (.inr rfl)⟩
  all_goals
    simp [expand, initOps, hwResetOps, clearOps, sleepOps, setWindowOps, resetCounterOps, updOps, activateOps, mem_sendOps] at h

/-! ### The wait-after-trigger contract (R151) -/

/-- One more micro-operation in front. -/
theorem triggersWaited_cons {i ops} (h : triggersWaited ops = true) (hi : ∀ c, i = .cmd c → isTrigger c = true → .wait ∈ ops) :
    triggersWaited (i :: ops) = true := by
  cases i
  case cmd c =>
    have hc : isTrigger c = false ∨ .wait ∈ ops := by
      cases htrigger : isTrigger c
      · exact .inl rfl
      · exact .inr (hi c rfl htrigger)
    simpa [triggersWaited, h] using hc
  all_goals exact h

/-- A program before one that waits keeps the contract, whatever it sends. -/
theorem triggersWaited_append_of_wait {a b} (hwait : .wait ∈ b) (hb : triggersWaited b = true) : triggersWaited (a ++ b) = true := by
  induction a with
  | nil => exact hb
  | cons i a ih => exact triggersWaited_cons ih fun _ _ _ => List.mem_append_right a hwait

/-- Two programs that keep it keep it together. -/
theorem triggersWaited_append {a b} (ha : triggersWaited a = true) (hb : triggersWaited b = true) : triggersWaited (a ++ b) = true := by
  induction a with
  | nil => exact hb
  | cons i a ih =>
    cases i
    case cmd c =>
      obtain ⟨hc, ha⟩ : (isTrigger c = false ∨ .wait ∈ a) ∧ triggersWaited a = true := by simpa [triggersWaited] using ha
      refine triggersWaited_cons (ih ha) fun _ heq htrigger => ?_
      cases heq
      exact List.mem_append_left b (hc.resolve_left (by simp [htrigger]))
    all_goals exact triggersWaited_cons (ih ha) nofun

/-- ACTIVATE ends with a WAIT (R90). -/
theorem activateOps_ends_with_wait (pb) : ∃ ops, activateOps pb = ops ++ [.wait] := ⟨_, (List.append_assoc _ [_] _).symm⟩

/-- So does UPD, which ends with an ACTIVATE (R91 to R93). -/
theorem updOps_ends_with_wait (c p) : ∃ ops, updOps c p = ops ++ [.wait] := by
  cases p
  case fast =>
    obtain ⟨ops, hops⟩ := activateOps_ends_with_wait c.pbFast3
    exact ⟨_, by rw [updOps, hops, ← List.append_assoc]⟩
  all_goals exact activateOps_ends_with_wait _

/-- So whatever comes before UPD is waited for. -/
theorem triggersWaited_append_updOps (a c p) : triggersWaited (a ++ updOps c p) = true := by
  obtain ⟨ops, hops⟩ := updOps_ends_with_wait c p
  rw [hops, ← List.append_assoc]
  exact triggersWaited_append_of_wait (by simp) rfl

/-- WRITE_AND_UPDATE keeps it: UPD and RED_CLEAR both end with a WAIT (R94, R97). -/
theorem triggersWaited_writeAndUpdateOps (c p) : triggersWaited (writeAndUpdateOps c p) = true := by
  rw [writeAndUpdateOps]
  refine triggersWaited_append (triggersWaited_append_updOps _ _ _) ?_
  cases c.clearRed
  · rfl
  · exact triggersWaited_append_of_wait (b := [.cmd .writeRedData, .fill c.redFillValue c.fbLen, .wait]) (by simp) rfl

/-- Settles O52: every block with a trigger ends with a WAIT, and SLEEP has none. -/
theorem everyTriggerIsWaitedFor : Obligations.EveryTriggerIsWaitedFor := by
  unfold Obligations.EveryTriggerIsWaitedFor
  intro c i
  cases i
  case init =>
    rw [expand, initOps]
    exact triggersWaited_append_of_wait (by simp) rfl
  case writeAndUpdateFull | writeAndUpdateFast | writeAndUpdatePartial => exact triggersWaited_writeAndUpdateOps c _
  case updateFull => exact triggersWaited_append_updOps [] c .full
  case updateFast => exact triggersWaited_append_updOps [] c .fast
  case updatePartial => exact triggersWaited_append_updOps [] c .part
  case clear v => exact triggersWaited_append_updOps _ c .full
  case sleep =>
    refine triggersWaited_append ?_ rfl
    cases c.payload.deepSleep <;> rfl
  all_goals rfl

/-! ### Transactions on a healthy panel (R64, R65) -/

/-- One micro-operation more, in front. -/
theorem tx_cons (c fb i ops acc) : tx c fb (i :: ops) acc = tx c fb ops (tx c fb [i] acc) := tx_append c fb [i] ops acc

/-- SET_WINDOW's two transactions, the latest first (R88). -/
theorem tx_window (c fb acc) :
    tx c fb (setWindowOps c) acc = (c.op.setRamYWindow, windowY c) :: (c.op.setRamXWindow, windowX c) :: acc := by
  rw [setWindowOps, tx_append, tx_send, tx_send]
  rfl

/-- RESET_COUNTER's (R89). -/
theorem tx_counter (c fb acc) :
    tx c fb (resetCounterOps c) acc = (c.op.setRamYCounter, counterY c) :: (c.op.setRamXCounter, counterX c) :: acc := by
  rw [resetCounterOps, tx_append, tx_send, tx_send]
  rfl

/-- A WAIT's poll belongs to none. -/
theorem tx_wait (c fb acc) : tx c fb [.wait] acc = acc := rfl

/-- ACTIVATE's (R90). -/
theorem tx_activate (c fb pb acc) :
    tx c fb (activateOps pb) acc = (c.op.masterActivate, []) :: (c.op.displayUpdateCtrl2, [pb]) :: acc := by
  rw [activateOps, tx_append, tx_send, tx_cons, tx_cmd, tx_wait]
  rfl

/-- A RAM write's: the command and its payload (R117, R118). -/
theorem tx_ramWrite {c : Config} {fb k i bs}
    (hi : opEvents c fb i = .line .dc (dcDataLevel c) .ok :: bs.map (fun b => .byte (dcDataLevel c) b .ok)) (acc) :
    tx c fb [.cmd k, i] acc = (opcodeOf c.op k, bs) :: acc := by
  rw [tx_cons, tx_cmd, tx_data c fb i bs _ _ hi]

/-- FILL's events are those of its copies (R77). -/
theorem opEvents_fill (c fb v n) : opEvents c fb (.fill v n)
    = .line .dc (dcDataLevel c) .ok :: (List.replicate n v).map (fun b => .byte (dcDataLevel c) b .ok) := by
  rw [List.map_replicate, opEvents]

/-- STREAM's are those of the framebuffer in address order (R78). -/
theorem opEvents_stream (c fb n) : opEvents c fb (.stream n)
    = .line .dc (dcDataLevel c) .ok :: ((List.range n).map (Memory.lookup fb)).map (fun b => .byte (dcDataLevel c) b .ok) := by
  rw [List.map_map, opEvents]
  rfl

/-- RED_CLEAR's (R97). -/
theorem tx_redClear (c fb acc) : tx c fb (redClearOps c) acc = (c.op.writeRedData, List.replicate c.fbLen c.redFillValue)
    :: (c.op.setRamYCounter, counterY c) :: (c.op.setRamXCounter, counterX c) :: acc := by
  rw [redClearOps, tx_append, tx_counter, tx_cons, tx_cmd, tx_cons, tx_data _ _ _ _ _ _ (opEvents_fill ..), tx_wait]
  rfl

/-- The Fast profile's (R93). -/
theorem tx_updFast (c fb acc) : tx c fb (updOps c .fast) acc =
    [(c.op.masterActivate, []), (c.op.displayUpdateCtrl2, [c.pbFast3]), (c.op.masterActivate, []),
      (c.op.displayUpdateCtrl2, [c.pbFast2]), (c.op.tempControlWrite, c.tempOverride), (c.op.masterActivate, []),
      (c.op.displayUpdateCtrl2, [c.pbFast1])] ++ acc := by
  rw [updOps, tx_append, tx_append, tx_append, tx_activate, tx_send, tx_activate, tx_activate]
  rfl

/-- The transactions that prepare a RAM write: window, counter and the RAM data, the latest first (R94, R95). -/
theorem tx_ramBlock {c : Config} {fb i bs}
    (hi : opEvents c fb i = .line .dc (dcDataLevel c) .ok :: bs.map (fun b => .byte (dcDataLevel c) b .ok)) (acc) :
    tx c fb (setWindowOps c ++ resetCounterOps c ++ [.cmd .writeBwData, i]) acc =
      (c.op.writeBwData, bs) :: (c.op.setRamYCounter, counterY c) :: (c.op.setRamXCounter, counterX c)
        :: (c.op.setRamYWindow, windowY c) :: (c.op.setRamXWindow, windowX c) :: acc := by
  rw [tx_append, tx_append, tx_window, tx_counter, tx_ramWrite hi]
  rfl

/-- WRITE_AND_UPDATE's: the streamed framebuffer, UPD's and RED_CLEAR's (R94, R97). -/
theorem transactions_writeAndUpdate (c fb p) : transactions c (busWords (healthyEvents c fb (writeAndUpdateOps c p))) =
    [(c.op.setRamXWindow, windowX c), (c.op.setRamYWindow, windowY c), (c.op.setRamXCounter, counterX c),
      (c.op.setRamYCounter, counterY c), (c.op.writeBwData, (List.range c.fbLen).map (Memory.lookup fb))]
    ++ (tx c fb (updOps c p) []).reverse
    ++ (if c.clearRed then [(c.op.setRamXCounter, counterX c), (c.op.setRamYCounter, counterY c),
      (c.op.writeRedData, List.replicate c.fbLen c.redFillValue)] else []) := by
  have hupd (acc) : tx c fb (updOps c p) acc = tx c fb (updOps c p) [] ++ acc := by
    cases p
    case fast => rw [tx_updFast, tx_updFast, List.append_nil]
    all_goals
      rw [updOps, tx_activate, tx_activate]
      rfl
  rw [transactions_eq, writeAndUpdateOps, tx_append, tx_append, tx_ramBlock (opEvents_stream ..), hupd]
  cases c.clearRed
  · simp [tx, healthyEvents, busWords]
  · simp [tx_redClear]

/-- Settles O49: INIT block by block; its SETDEVs, reset line writes and WAITs belong to no transaction. -/
theorem initTransactions : Obligations.InitTransactions := by
  unfold Obligations.InitTransactions
  intro c fb
  have hstart (acc) : tx c fb [.setdev .uninitialized] acc = acc := rfl
  have hreset (acc) : tx c fb hwResetOps acc = acc := rfl
  have hswReset (acc) : tx c fb [.wait, .cmd .swReset, .wait] acc = (c.op.swReset, []) :: acc := by
    rw [tx_cons, tx_wait, tx_cons, tx_cmd, tx_wait]
    rfl
  have hend (acc) : tx c fb [.wait, .setdev .idle] acc = acc := rfl
  simp only [transactions_eq, expand, initOps, tx_append, tx_send, tx_window, tx_counter, hstart, hreset, hswReset, hend]
  rfl

/-- Settles O50: UPD's profiles, and SLEEP's one SEND before its SETDEV. -/
theorem updateAndSleepTransactions : Obligations.UpdateAndSleepTransactions := by
  unfold Obligations.UpdateAndSleepTransactions
  intro c fb
  have hsetdev (acc) : tx c fb [.setdev .sleeping] acc = acc := rfl
  simp only [transactions_eq, expand, tx_updFast, sleepOps, tx_append, tx_send, hsetdev]
  simp only [updOps, tx_activate]
  exact ⟨rfl, rfl, rfl, rfl⟩

/-- CLEAR's: the copies of its byte and the Full profile (R95). -/
theorem transactions_clear (c fb v) : transactions c (busWords (healthyEvents c fb (clearOps c v))) =
    [(c.op.setRamXWindow, windowX c), (c.op.setRamYWindow, windowY c), (c.op.setRamXCounter, counterX c),
      (c.op.setRamYCounter, counterY c), (c.op.writeBwData, List.replicate c.fbLen v),
      (c.op.displayUpdateCtrl2, [c.pbFull]), (c.op.masterActivate, [])] := by
  rw [transactions_eq, clearOps, tx_append, tx_ramBlock (opEvents_fill ..), updOps, tx_activate]
  rfl

/-- Settles O51: WRITE_AND_UPDATE under each profile, and CLEAR. -/
theorem ramWriteTransactions : Obligations.RamWriteTransactions := by
  unfold Obligations.RamWriteTransactions
  refine fun c fb v => ⟨(transactions_writeAndUpdate c fb .full).trans ?_, (transactions_writeAndUpdate c fb .part).trans ?_,
    (transactions_writeAndUpdate c fb .fast).trans ?_, transactions_clear c fb v⟩
  · rw [updOps, tx_activate]
    rfl
  · rw [updOps, tx_activate]
    rfl
  · rw [tx_updFast]
    rfl

/-! ### Event counts under REF (R160) -/

/-- SET_WINDOW's events under REF: two payload bytes for the columns, four for the rows. -/
theorem len_window_ref (fb) : (healthyEvents refConfig fb (setWindowOps refConfig)).length = 12 := by
  have hx : windowX refConfig = [0x00#8, 0x0F#8] := rfl
  have hy : windowY refConfig = [0x00#8, 0x00#8, 0x27#8, 0x01#8] := rfl
  rw [setWindowOps, len_append, len_send, len_send, hx, hy]
  rfl

/-- RESET_COUNTER's: one payload byte and two. -/
theorem len_counter_ref (fb) : (healthyEvents refConfig fb (resetCounterOps refConfig)).length = 9 := by
  have hx : counterX refConfig = [0x00#8] := rfl
  have hy : counterY refConfig = [0x00#8, 0x00#8] := rfl
  rw [resetCounterOps, len_append, len_send, len_send, hx, hy]
  rfl

/-- ACTIVATE's, under every configuration. -/
theorem len_activate (c fb pb) : (healthyEvents c fb (activateOps pb)).length = 7 := rfl

/-- WRITE_LUT's under REF: LUT_LEN bytes. -/
theorem len_lut_ref (fb) : (healthyEvents refConfig fb (sendOps .writeLut refConfig.lutFull)).length = 73 := by
  have hlen : refConfig.lutFull.length = 70 := by simp [refConfig]
  have hne : refConfig.lutFull ≠ [] := List.ne_nil_of_length_eq_add_one hlen
  rw [len_send, if_neg hne, hlen]

/-- A RAM command with its FB_LEN bytes under REF. -/
theorem len_ramWrite_ref {fb k i} (hi : (opEvents refConfig fb i).length = 1 + refConfig.fbLen) :
    (healthyEvents refConfig fb [.cmd k, i]).length = 4739 := by
  have hfb : refConfig.fbLen = 4736 := rfl
  rw [len_cons, len_cons, len_nil, hi, hfb]
  rfl

/-- FILL's events are the DC write and its copies. -/
theorem len_fill (c fb v n) : (opEvents c fb (.fill v n)).length = 1 + n := by
  simp [opEvents, Nat.add_comm]

/-- STREAM's are the DC write and its bytes. -/
theorem len_stream (c fb n) : (opEvents c fb (.stream n)).length = 1 + n := by
  simp [opEvents, Nat.add_comm]

/-- UPD FAST's under REF: three activations and the temperature override. -/
theorem len_updFast_ref (fb) : (healthyEvents refConfig fb (updOps refConfig .fast)).length = 26 := by
  rw [updOps, len_append, len_append, len_append, len_activate, len_activate, len_activate, len_send]
  rfl

/-- Settles O56: the counts of the blocks add up. -/
theorem eventCountsUnderRef : Obligations.EventCountsUnderRef := by
  unfold Obligations.EventCountsUnderRef
  intro fb v
  have hfb : refConfig.fbLen = 4736 := rfl
  have hcmd : (opEvents refConfig fb (.cmd .writeRedData)).length = 2 := rfl
  have hwait : (healthyEvents refConfig fb [.wait]).length = 1 := rfl
  refine ⟨?_, rfl, rfl, len_updFast_ref fb, ?_, ?_, ?_, rfl⟩
  · rw [expand, initOps]
    simp only [len_append, len_window_ref, len_counter_ref, len_lut_ref]
    rfl
  · rw [expand, writeAndUpdateOps, len_append, len_append, len_append, len_append, len_window_ref, len_counter_ref,
      len_ramWrite_ref (len_stream ..), updOps, len_activate]
    rfl
  · rw [expand, clearOps, len_append, len_append, len_append, len_window_ref, len_counter_ref, len_ramWrite_ref (len_fill ..),
      updOps, len_activate]
  · rw [redClearOps, len_append, len_counter_ref, len_cons, len_cons, len_fill, hfb, hcmd, hwait]

end Sys2Proof.Machine
end

section
/-! PROOFS. The layout contract and the host's framebuffer write (spec/20_memory.md). -/

namespace Sys2Proof.Machine

/-- A native pixel on the panel has its byte column below WB (R41). -/
theorem byteColumn_lt {c : Config} {px} (hw : c.wf = true) (hx : px < c.width) : px / 8 < c.wb := by
  obtain ⟨hwidth, _, _⟩ := wf_dims hw
  omega

/-- Settles O22: dividing the offset `py * WB + px / 8` by WB gives its two parts back. -/
theorem ramPlaceMatchesLayout : Obligations.RamPlaceMatchesLayout := by
  unfold Obligations.RamPlaceMatchesLayout
  intro c px py hw hx _
  have hcol := byteColumn_lt hw hx
  have hmod : (py * c.wb + px / 8) % c.wb = px / 8 := Nat.mul_add_mod_of_lt hcol
  have hdiv : (py * c.wb + px / 8) / c.wb = py := by rw [Nat.mul_comm, Nat.mul_add_div (by omega), Nat.div_eq_of_lt hcol, Nat.add_zero]
  rw [ramPlace, pixelByte, hmod, hdiv]

/-- A byte and a mask name one native pixel (R41). -/
theorem nativePixel_inj {c : Config} {px py px' py'} (hw : c.wf = true) (hx : px < c.width) (hy : py < c.height) (hx' : px' < c.width)
    (hy' : py' < c.height) (hbyte : pixelByte c px py = pixelByte c px' py') (hmask : pixelMask px = pixelMask px') :
    px = px' ∧ py = py' := by
  have hplace := ramPlaceMatchesLayout c px py hw hx hy
  rw [hbyte, ramPlaceMatchesLayout c px' py' hw hx' hy', Prod.mk.injEq] at hplace
  have hcolumn := mask_inj (px % 8) (by omega) (px' % 8) (by omega) hmask
  omega

/-- The table of R42 maps the valid coordinates of a rotation to distinct native pixels. -/
theorem nativeCoord_inj {c : Config} {x y x' y' r} (h : validCoord c x y r = true) (h' : validCoord c x' y' r = true)
    (heq : nativeCoord c x y r = nativeCoord c x' y' r) : x = x' ∧ y = y' := by
  rw [validCoord_iff] at h h'
  cases r <;> simp only [logicalWidth, logicalHeight, nativeCoord, Prod.mk.injEq] at h h' heq <;> omega

/-- `index_of` gives a value on valid coordinates only (R43). -/
theorem validCoord_of_indexOf_ok {c x y r p} (h : indexOf c x y r = .ok p) : validCoord c x y r = true := by
  by_contra hinvalid
  rw [indexOf_of_invalid hinvalid] at h
  cases h

/-- Settles O21: the offset and the mask give the native pixel back, and the rotation table the coordinate. -/
theorem indexOfInjective : Obligations.IndexOfInjective := by
  unfold Obligations.IndexOfInjective
  intro c x y x' y' r p hw h h'
  have hvalid := validCoord_of_indexOf_ok h
  have hvalid' := validCoord_of_indexOf_ok h'
  obtain ⟨hpx, hpy⟩ := nativeCoord_bounds hvalid
  obtain ⟨hpx', hpy'⟩ := nativeCoord_bounds hvalid'
  rw [indexOf_of_valid hvalid, Except.ok.injEq] at h
  rw [indexOf_of_valid hvalid', Except.ok.injEq, ← h, Prod.mk.injEq] at h'
  obtain ⟨hx, hy⟩ := nativePixel_inj hw hpx' hpy' hpx hpy h'.1 h'.2
  exact nativeCoord_inj hvalid hvalid' (Prod.ext hx.symm hy.symm)

/-- Settles O23: the guard, and the framebuffer laws of one write. -/
theorem hostStoreWritesOneByte : Obligations.HostStoreWritesOneByte := by
  unfold Obligations.HostStoreWritesOneByte
  refine fun a b s => ⟨fun hguard => if_neg ?_, fun hc ha =>
    ⟨_, if_pos ⟨hc, ha⟩, rfl, fun hw => ⟨?_, fun a' hne => ?_, put_wf hw ha⟩⟩⟩
  · rintro ⟨hc, ha⟩
    exact hguard.elim (fun hne => hne hc) (fun hle => absurd ha (Nat.not_lt.mpr hle))
  · rw [read_put hw ha, if_pos rfl]
  · rw [read_put hw ha, if_neg hne]

end Sys2Proof.Machine
end

section
/-! PROOFS. The lifecycle invariant: it holds at construction, every step keeps it, and what follows from it: the framing of bytes,
no stop, and the termination of every request. -/

namespace Sys2Proof.Machine

/-! ### The current micro-operation of a run that meets the invariant -/

/-- The current micro-operation is one of the eight of R21, well formed, and inside the program. -/
theorem RunOk.op {s r i} (h : RunOk s r) (hw : s.cfg.wf = true) (hi : r.prog[r.mpc]? = some i) :
    i.isPrimitive = true ∧ i.wellFormed s.cfg = true ∧ r.mpc < r.prog.length := by
  have hmem : i ∈ expand s.cfg r.req := h.prog ▸ List.mem_of_getElem? hi
  exact ⟨expand_prim hmem, List.all_eq_true.mp (all_wellFormed_expand hw _) i hmem, (List.getElem?_eq_some_iff.mp hi).1⟩

/-- A SETDEV of the program is INIT's first or the program's last micro-operation. -/
theorem RunOk.setdev {s r d} (h : RunOk s r) (hi : r.prog[r.mpc]? = some (.setdev d)) :
    (r.req = .init ∧ r.mpc = 0 ∧ d = .uninitialized) ∨ r.mpc + 1 = r.prog.length := by
  have hprog := h.prog
  rw [hprog] at hi ⊢
  exact expand_setdev h.legal hi

/-- INIT's first micro-operation is SETDEV(Uninitialized) (R86). -/
theorem RunOk.first_of_init {s r i} (h : RunOk s r) (hinit : r.req = .init) (hmpc : r.mpc = 0) (hi : r.prog[r.mpc]? = some i) :
    i = .setdev .uninitialized := by
  rw [h.prog, hmpc, expand_first hinit] at hi
  exact (Option.some.inj hi).symm

/-- A primitive micro-operation is no request. -/
theorem isRequest_of_isPrimitive {i : Instr} (h : i.isPrimitive = true) : i.isRequest = false := by
  cases i
  case cmd | data | fill | stream | line | delay | wait | setdev => rfl
  all_goals cases h

/-- A fresh place is one any micro-operation can have: WAIT_BOUND ≥ 1 leaves room for a poll (R10). -/
theorem placeOk_fresh {c : Config} (hw : c.wf = true) (op : Option Instr) {r : Run} (hf : r.framed = false) (hs : r.sub = 0) :
    placeOk c op r := by
  have hbound : 1 ≤ c.waitBound := by simp [Config.wf] at hw; omega
  unfold placeOk
  split <;> simp [hf, hs]
  omega

/-- Inside a micro-operation some of its work is left (R29, R30). -/
theorem work_of_placeOk {c i} {r : Run} (hp : i.isPrimitive = true) (h : placeOk c (some i) r) :
    r.sub + (if r.framed then 1 else 0) < opWork c i := by
  have hpayload {n} (h : if r.framed then r.sub < n else r.sub = 0) : r.sub + (if r.framed then 1 else 0) < 1 + n := by
    by_cases hf : r.framed = true
    · rw [if_pos hf] at h ⊢
      omega
    · rw [if_neg hf] at h ⊢
      omega
  cases i <;> simp only [Instr.isPrimitive, Bool.false_eq_true] at hp
  case cmd =>
    have hsub : r.sub = 0 := h
    simp only [hsub, opWork]
    split <;> omega
  case data | fill | stream => exact hpayload h
  case line | delay | setdev | wait =>
    obtain ⟨hf, hsub⟩ := h
    simp [hf, hsub, opWork]

/-! ### The run register after one step of a micro-operation -/

/-- A micro-operation keeps Idle or Busy, but for SETDEV (R75, R82). -/
theorem devAfterOp_idle_or_busy {d i} (hd : d = .idle ∨ d = .busy) (hi : ∀ d', i ≠ .setdev d') :
    devAfterOp d i = .idle ∨ devAfterOp d i = .busy := by
  rcases devAfterOp_cases d i with h | ⟨_, h, _⟩ | ⟨_, h, _⟩ | h
  · rwa [h]
  · exact .inr h
  · exact .inl h
  · exact absurd h (hi _)

/-- It keeps Uninitialized, but for SETDEV. -/
theorem devAfterOp_uninitialized {i} (hi : ∀ d', i ≠ .setdev d') : devAfterOp .uninitialized i = .uninitialized := by
  rcases devAfterOp_cases .uninitialized i with h | ⟨h, _⟩ | ⟨h, _⟩ | h
  · exact h
  · cases h
  · cases h
  · exact absurd h (hi _)

/-- With DC driven, CMD and a payload with bytes stand before their first byte (R75, R76). -/
theorem placeOk_driven {c i} {r : Run} (h : placeOk c (some i) r) (hf : r.framed = false)
    (hi : (∃ k, i = .cmd k) ∨ 0 < payloadCount i) : placeOk c (some i) { r with framed := true } := by
  rcases hi with ⟨k, rfl⟩ | hcount
  · exact h
  cases i <;> simp only [payloadCount, Nat.lt_irrefl] at hcount
  case data | fill | stream =>
    have hsub : r.sub = 0 := by simpa [placeOk, hf] using h
    simpa [placeOk, hsub] using hcount

/-- With a byte written that was not the last, a payload stands before its next one (R76). -/
theorem placeOk_counted {c i} {r : Run} (hf : r.framed = true) (hlt : r.sub + 1 < payloadCount i) :
    placeOk c (some i) { r with sub := r.sub + 1 } := by
  cases i <;> simp only [payloadCount, Nat.not_lt_zero] at hlt
  case data | fill | stream => simpa [placeOk, hf] using hlt

/-- A WAIT that ends leaves `dev` Uninitialized in INIT, where it is not the first micro-operation, and Idle elsewhere (R82, R129). -/
theorem RunOk.dev_after_wait {s r} (h : RunOk s r) (hi : r.prog[r.mpc]? = some .wait) :
    devAfterWait s.dev = if r.req = .init then .uninitialized else .idle := by
  have hduring := h.during (List.getElem?_eq_some_iff.mp hi).1
  by_cases hinit : r.req = .init
  · rw [if_pos hinit] at hduring ⊢
    have hzero : r.mpc ≠ 0 := fun hzero => nomatch h.first_of_init hinit hzero hi
    rw [hduring.resolve_left hzero]
    rfl
  · rw [if_neg hinit] at hduring ⊢
    rcases hduring with hdev | hdev <;> rw [hdev] <;> rfl

/-- What holds of `dev` inside a request holds at the next micro-operation: before the last one only INIT's first is a SETDEV. -/
theorem RunOk.during_next {s r i} (h : RunOk s r) (hi : r.prog[r.mpc]? = some i) (hlast : r.mpc + 1 < r.prog.length) :
    if r.req = .init then r.mpc + 1 = 0 ∨ devAfterOp s.dev i = .uninitialized
    else devAfterOp s.dev i = .idle ∨ devAfterOp s.dev i = .busy := by
  have hduring := h.during (Nat.lt_of_succ_lt hlast)
  by_cases hinit : r.req = .init
  · rw [if_pos hinit] at hduring ⊢
    by_cases hzero : r.mpc = 0
    · rw [h.first_of_init hinit hzero hi]
      exact .inr rfl
    · rw [hduring.resolve_left hzero]
      refine .inr (devAfterOp_uninitialized fun d hd => ?_)
      rcases h.setdev (hd ▸ hi) with ⟨_, hfirst, _⟩ | hend <;> omega
  · rw [if_neg hinit] at hduring ⊢
    refine devAfterOp_idle_or_busy hduring fun d hd => ?_
    rcases h.setdev (hd ▸ hi) with ⟨hfirst, _⟩ | hend
    · exact hinit hfirst
    · omega

/-- A run that stays at its micro-operation without raising, with `dev` unchanged, goes on. -/
theorem RunOk.stay {s t r} (h : RunOk s r) (hr : r.raised = none) (hcfg : t.cfg = s.cfg) (hdev : t.dev = s.dev) (n : Nat) (f : Bool)
    (hplace : placeOk s.cfg r.prog[r.mpc]? { r with sub := n, framed := f })
    (hlevel : f = true → t.dc = some (frameLevel s.cfg r.prog[r.mpc]?)) : RunOk t { r with sub := n, framed := f } where
  legal := h.legal
  prog := hcfg ▸ h.prog
  inside := h.inside
  place _ := hcfg ▸ hplace
  level _ hf := hcfg ▸ hlevel hf
  stopped hne := absurd hr hne
  life _ := hdev ▸ h.life hr
  during hlt := hdev ▸ h.during hlt
  timedOut ht := nomatch hr.symm.trans ht

/-- A run that raised a failure at its micro-operation waits for the abort (R128). -/
theorem RunOk.stop {s t r} (h : RunOk s r) (hlt : r.mpc < r.prog.length) (hcfg : t.cfg = s.cfg) (n : Nat) (e : Failure)
    (hduring : if r.req = .init then r.mpc = 0 ∨ t.dev = .uninitialized else t.dev = .idle ∨ t.dev = .busy)
    (htimeout : e = .timeout → t.dev = if r.req = .init then .uninitialized else .idle) :
    RunOk t { r with sub := n, raised := some e } where
  legal := h.legal
  prog := hcfg ▸ h.prog
  inside := h.inside
  place := nofun
  level := nofun
  stopped _ := hlt
  life := nofun
  during _ := hduring
  timedOut ht := htimeout (Option.some.inj ht)

/-- A run whose micro-operation finished goes on with the next one. -/
theorem RunOk.next {s t r i} (h : RunOk s r) (hw : s.cfg.wf = true) (hr : r.raised = none) (hi : r.prog[r.mpc]? = some i)
    (hcfg : t.cfg = s.cfg) (hdev : t.dev = devAfterOp s.dev i) : RunOk t { r with mpc := r.mpc + 1, sub := 0, framed := false } where
  legal := h.legal
  prog := hcfg ▸ h.prog
  inside := (List.getElem?_eq_some_iff.mp hi).1
  place _ := placeOk_fresh (hcfg ▸ hw) _ rfl rfl
  level _ := nofun
  stopped hne := absurd hr hne
  life _ := by rw [hdev, ← h.life hr, drop_cons hi, devAfterOps_cons]
  during hlast := hdev ▸ h.during_next hi hlast
  timedOut ht := nomatch hr.symm.trans ht

/-- A run goes on after any step of its current micro-operation (R75 to R83). -/
theorem RunOk.step {s t r i} (h : RunOk s r) (hw : s.cfg.wf = true) (hr : r.raised = none) (hi : r.prog[r.mpc]? = some i)
    (hcfg : t.cfg = s.cfg) (hstep : PrimStep s r i t) : ∃ r', t.cur = some r' ∧ RunOk t r' := by
  have hlt := (h.op hw hi).2.2
  have hplace : placeOk s.cfg (some i) r := hi ▸ h.place hr
  cases hstep with
  | failed cur dev => exact ⟨_, cur, h.stop hlt hcfg r.sub .busError (dev ▸ h.during hlt) nofun⟩
  | driven un k cur dev dc =>
    exact ⟨_, cur, h.stay hr hcfg dev r.sub true (hi ▸ placeOk_driven hplace un k) (fun _ => hi ▸ dc)⟩
  | counted fr lt cur dev dc =>
    exact ⟨_, cur, h.stay hr hcfg dev (r.sub + 1) r.framed (hi ▸ placeOk_counted fr lt) (fun hf => dc.trans (h.level hr hf))⟩
  | polled w lt cur dev dc =>
    subst w
    obtain ⟨hf, hsub⟩ := hplace
    have hnext : r.sub + 1 < s.cfg.waitBound := by omega
    exact ⟨_, cur, h.stay hr hcfg dev (r.sub + 1) r.framed (hi ▸ ⟨hf, hnext⟩) (fun hf' => nomatch hf.symm.trans hf')⟩
  | timedOut w cur dev =>
    subst w
    have hdev := dev.trans (h.dev_after_wait hi)
    refine ⟨_, cur, h.stop hlt hcfg (r.sub + 1) .timeout ?_ fun _ => hdev⟩
    by_cases hinit : r.req = .init
    · rw [if_pos hinit] at hdev ⊢
      exact .inr hdev
    · rw [if_neg hinit] at hdev ⊢
      exact .inl hdev
  | finished cur dev => exact ⟨_, cur, h.next hw hr hi hcfg dev⟩

/-! ### The invariant -/

/-- A state that rests, not Busy, with a well-formed configuration and framebuffer meets the invariant. -/
theorem inv_of_idle {s} (hw : s.cfg.wf = true) (hfb : Memory.wf s.cfg.fbLen s.fb = true) (hc : s.cur = none) (hdev : s.dev ≠ .busy) :
    Inv s :=
  ⟨hw, hfb, fun _ => hdev, fun _ hr => nomatch hc.symm.trans hr⟩

/-- A run at its start meets the invariant: INIT's from any `dev`, another's from Idle (R85). -/
theorem runOk_start {s i} (hw : s.cfg.wf = true) (hl : i.isLegalRequest = true) (hdev : i = .init ∨ s.dev = .idle) :
    RunOk s ⟨i, expand s.cfg i, 0, 0, false, none⟩ where
  legal := hl
  prog := rfl
  inside := Nat.zero_le _
  place _ := placeOk_fresh hw _ rfl rfl
  level := nofun
  stopped h := absurd rfl h
  life _ := by rw [List.drop_zero, expand_final _ _ _ hl (hdev.imp_right .inl), finalDev_eq]
  during _ := by
    split
    · exact .inl rfl
    · exact .inl (hdev.resolve_left ‹_›)
  timedOut := nofun

/-- Dispatching an accepted word meets the invariant: it is answered, or its run starts (R85, R127). -/
theorem inv_dispatch {s} (w : Word) (hw : s.cfg.wf = true) (hfb : Memory.wf s.cfg.fbLen s.fb = true) (hdev : s.dev ≠ .busy) :
    Inv (dispatch (decodeRequest w) s) := by
  rcases decodeRequest_legal_or_illegal w with hl | hillegal
  · rw [dispatch_of_isLegalRequest hl]
    split_ifs with hcheck
    · exact inv_of_idle hw hfb rfl hdev
    · have hpass : decodeRequest w = .init ∨ s.dev = .idle := by
        cases hd : s.dev <;> simp_all
      have hrun := runOk_start (s := { s with cur := some ⟨decodeRequest w, expand s.cfg (decodeRequest w), 0, 0, false, none⟩ })
        hw hl hpass
      exact ⟨hw, hfb, nofun, fun r hr => Option.some.inj hr ▸ hrun⟩
  · rw [hillegal]
    exact inv_of_idle hw hfb rfl hdev

/-- A failure taken leaves `dev` Uninitialized, or Idle after a Timeout of a request other than INIT (R129). -/
theorem dev_of_abort {s r e} (h : RunOk s r) (he : r.raised = some e) :
    (abort e s).dev = if e = .busError ∨ r.req = .init then .uninitialized else .idle := by
  cases e with
  | busError => rfl
  | timeout =>
    rw [abort_dev, devAfterFailure, h.timedOut he]
    simp

/-- A run at the end of its program has its final `dev` (R87, R91 to R96). -/
theorem dev_of_end {s r} (h : RunOk s r) (hr : r.raised = none) (hend : r.prog[r.mpc]? = none) : s.dev = finalDev r.req := by
  have hlife := h.life hr
  rwa [List.drop_eq_nil_of_le (List.getElem?_eq_none_iff.mp hend)] at hlife

/-- Settles O10: the kinds of step; the micro-operations by `RunOk.step`. -/
theorem stepKeepsLifecycle : Obligations.StepKeepsLifecycle := by
  unfold Obligations.StepKeepsLifecycle
  intro s t hinv h
  obtain ⟨hw, hfb, hidle, hrun⟩ := hinv
  rcases step_cases h with ⟨_, rfl⟩ | ⟨hc, w, rest, _, rfl⟩ | ⟨r, hc, hr, i, hi, hq, hexec⟩
    | ⟨_, _, _, _, _, _, rfl⟩ | ⟨r, hc, f, hf, rfl⟩ | ⟨r, hc, hr, hi, rfl⟩
  case idle | held => exact ⟨hw, hfb, hidle, hrun⟩
  case accept => exact inv_dispatch w hw hfb (hidle hc)
  case act =>
    obtain ⟨hcfg, hfbEq, _⟩ := exec_frame hexec
    have hprim := ((hrun r hc).op hw hi).1
    obtain ⟨r', hcur, hnext⟩ := (hrun r hc).step hw hr hi hcfg (exec_prim hc hprim hexec)
    exact ⟨hcfg ▸ hw, by rw [hcfg, hfbEq]; exact hfb, fun hn => (nomatch hcur.symm.trans hn),
      fun _ hr' => Option.some.inj (hcur.symm.trans hr') ▸ hnext⟩
  case abort =>
    refine inv_of_idle hw hfb rfl ?_
    rw [dev_of_abort (hrun r hc) hf]
    split <;> exact nofun
  case complete =>
    refine inv_of_idle hw hfb rfl ?_
    rw [complete_dev, dev_of_end (hrun r hc) hr hi]
    exact not_busy_final

end Sys2Proof.Machine

namespace Sys2Proof

/-- Settles O28: `dev` after the abort, which is the one step of a raised run. -/
theorem devAfterFailure : Obligations.DevAfterFailure := by
  unfold Obligations.DevAfterFailure
  intro s t r e hinv hc he h
  cases (Machine.step_of_raised hc he).symm.trans h
  exact Machine.dev_of_abort (hinv.run r hc) he

end Sys2Proof

namespace Sys2Proof.Machine

/-- The reference configuration meets the constraints of the spec (R122). -/
theorem refConfig_wf : refConfig.wf = true := by
  simp [Config.wf, refConfig, refPayloads, refPackX, refPackY, Config.wb]

/-- Settles O9: nothing runs, nothing happened yet, and REF is well formed. -/
theorem resetMeetsInvariants : Obligations.ResetMeetsInvariants := by
  unfold Obligations.ResetMeetsInvariants
  exact ⟨inv_of_idle refConfig_wf reset_memory_wf rfl nofun, ⟨rfl, rfl, rfl, rfl⟩, rfl⟩

/-- A property that every step keeps holds after every run. -/
theorem runSteps_induction {P : State → Prop} (hstep : ∀ s t, P s → step s = .next t → P t) {n s t} (hs : P s)
    (h : runSteps n s = .next t) : P t := by
  induction n generalizing s with
  | zero => cases h; exact hs
  | succ n ih =>
    obtain ⟨u, hu, hrest⟩ := run_next h
    exact ih (hstep s u hs hu) hrest

/-- Settles O14: construction meets the invariant under every configuration, and every step keeps it. -/
theorem neverBusyBetweenRequests : Obligations.NeverBusyBetweenRequests := by
  unfold Obligations.NeverBusyBetweenRequests
  intro c fb ws as vs n t hw hfb h
  have hstart : Inv { State.reset with cfg := c, fb := fb, reqs := ws, acks := as, polls := vs } := inv_of_idle hw hfb rfl nofun
  exact (runSteps_induction (P := Inv) stepKeepsLifecycle hstart h).idle

/-! ### The framing of bytes (R63, R65) -/

/-- An event other than a byte needs no framing. -/
theorem bytesFramed_snoc_of_not_byte {tr e} (he : ∀ d b a, e ≠ .byte d b a) : bytesFramed (tr ++ [e]) = bytesFramed tr := by
  rw [bytesFramed_snoc]
  cases e
  case byte d b a => exact absurd rfl (he d b a)
  all_goals exact Bool.and_true _

/-- Settles O12: a micro-operation writes a byte only once it has driven DC, which the trace then shows at that level. -/
theorem stepKeepsBytesFramed : Obligations.StepKeepsBytesFramed := by
  unfold Obligations.StepKeepsBytesFramed
  intro s t hinv hagrees hframed h
  rcases step_cases h with ⟨_, rfl⟩ | ⟨hc, w, rest, _, rfl⟩ | ⟨r, hc, hr, i, hi, hq, hexec⟩
    | ⟨_, _, _, _, _, _, rfl⟩ | ⟨_, _, _, _, rfl⟩ | ⟨_, _, _, _, rfl⟩
  case idle | held => exact hframed
  case accept =>
    have haccepted : bytesFramed (s.trace ++ [.accept (encodeRequest (decodeRequest w))]) = true := by
      rw [bytesFramed_snoc_of_not_byte (by simp), hframed]
    rcases dispatch_events (decodeRequest w) (emit (.accept (encodeRequest (decodeRequest w))) { s with reqs := rest })
      with htr | ⟨r, htr⟩
    · exact htr ▸ haccepted
    · rw [htr, bytesFramed_snoc_of_not_byte (by simp)]
      exact haccepted
  case act =>
    have hrun := hinv.run r hc
    rcases byte_needs_dc hc (hrun.op hinv.cfg hi).1 hexec with ⟨d, b, a, htr, rfl, hf⟩ | htr | ⟨e, htr, he⟩
    · have hdc := hrun.level hr hf
      rw [htr, bytesFramed_snoc, hframed]
      simp [hagrees.dc, hdc, byteLevel_of_dc hdc]
    · rw [htr, hframed]
    · rw [htr, bytesFramed_snoc_of_not_byte he, hframed]
  case abort | complete => exact (bytesFramed_snoc_of_not_byte (by simp)).trans hframed

/-! ### Sleeping (R143, R153) -/

/-- SETDEV's one step (R83). -/
theorem exec_setdev {d s r} (hc : s.cur = some r) : exec (.setdev d) s = .next { s with
    dev := d, cur := some { r with mpc := r.mpc + 1, sub := 0, framed := false } } :=
  setdevWritesDev d s r hc

/-- While `dev` is Sleeping only a run of INIT stands before the end of its program, at its first micro-operation. -/
theorem RunOk.init_of_sleeping {s r} (h : RunOk s r) (hs : s.dev = .sleeping) (hlt : r.mpc < r.prog.length) :
    r.req = .init ∧ r.mpc = 0 := by
  have hduring := h.during hlt
  simp only [hs] at hduring
  split at hduring
  · exact ⟨‹_›, hduring.resolve_right nofun⟩
  · rcases hduring with h | h <;> cases h

/-- Settles O19: a run found Sleeping is at INIT's SETDEV, which emits nothing, or at an end that answers. -/
theorem onlyInitLeavesSleeping : Obligations.OnlyInitLeavesSleeping := by
  unfold Obligations.OnlyInitLeavesSleeping
  intro s t hinv hs h
  rcases step_cases h with ⟨_, rfl⟩ | ⟨hc, w, rest, _, rfl⟩ | ⟨r, hc, hr, i, hi, hq, hexec⟩
    | ⟨_, _, _, _, _, _, rfl⟩ | ⟨r, hc, f, hf, rfl⟩ | ⟨_, _, _, _, rfl⟩
  case idle | held => exact ⟨.inl hs, [], (List.append_nil _).symm, nofun⟩
  case accept =>
    refine ⟨.inl ((dispatch_dev _ _).trans hs), ?_⟩
    rcases dispatch_events (decodeRequest w) (emit (.accept (encodeRequest (decodeRequest w))) { s with reqs := rest })
      with htr | ⟨r, htr⟩
    · exact ⟨[.accept _], htr, by simp⟩
    · exact ⟨[.accept _, .respond r], htr.trans (List.append_assoc ..), by simp⟩
  case act =>
    have hrun := hinv.run r hc
    obtain ⟨hinit, hzero⟩ := hrun.init_of_sleeping hs (hrun.op hinv.cfg hi).2.2
    cases hrun.first_of_init hinit hzero hi
    cases (exec_setdev hc).symm.trans hexec
    exact ⟨.inr ⟨r, hc, hinit⟩, [], (List.append_nil _).symm, nofun⟩
  case abort =>
    have hrun := hinv.run r hc
    obtain ⟨hinit, _⟩ := hrun.init_of_sleeping hs (hrun.stopped (by simp [hf]))
    exact ⟨.inr ⟨r, hc, hinit⟩, [.respond _], rfl, by simp⟩
  case complete => exact ⟨.inl hs, [.respond _], rfl, by simp⟩

/-! ### No stop (R126, R159) -/

/-- A payload action whose bytes are all there answers a next state. -/
theorem payloadAction_next {n byteAt s} {r : Run} (hb : ∀ k < n, ∃ b, byteAt k = .ok b) :
    ∃ t, payloadAction n byteAt s r = .next t := by
  by_cases hf : r.framed = true
  · by_cases hlt : r.sub < n
    · obtain ⟨b, hbyte⟩ := hb _ hlt
      exact ⟨_, payloadAction_driven hf hlt hbyte⟩
    · exact ⟨finish s, by simp [payloadAction, hf, hlt]⟩
  · exact ⟨_, by simp only [payloadAction, if_neg hf]; rfl⟩

/-- Inside a run a well-formed micro-operation of R21 answers a next state: STREAM stays inside the framebuffer (R78). -/
theorem exec_primitive_next {i s r} (hc : s.cur = some r) (hp : i.isPrimitive = true) (hw : i.wellFormed s.cfg = true) :
    ∃ t, exec i s = .next t := by
  cases i <;> simp only [Instr.isPrimitive, Bool.false_eq_true] at hp
  case data bs => exact (payloadAction_next fun _ _ => ⟨_, rfl⟩).imp fun _ => (inRun_of_running hc _).trans
  case fill v n => exact (payloadAction_next fun _ _ => ⟨_, rfl⟩).imp fun _ => (inRun_of_running hc _).trans
  case stream n =>
    have hn : n = s.cfg.fbLen := eq_of_beq hw
    refine (payloadAction_next fun k hk => ⟨Memory.lookup s.fb k, ?_⟩).imp fun _ => (inRun_of_running hc _).trans
    simp only [streamByte, Memory.read, if_pos (hn ▸ hk)]
  all_goals exact ⟨_, inRun_of_running hc _⟩

/-- Settles O13: every kind of step answers a next state, the micro-operations because an expansion's are well formed. -/
theorem invariantStateNeverStops : Obligations.InvariantStateNeverStops := by
  unfold Obligations.InvariantStateNeverStops
  intro s hinv
  cases hc : s.cur with
  | none =>
    cases hw : s.reqs with
    | nil => exact ⟨s, requestPortHandshake.2.2 s hc hw⟩
    | cons w rest => exact ⟨_, step_accepts_word hc hw⟩
  | some r =>
    cases hr : r.raised with
    | some e => exact ⟨_, step_of_raised hc hr⟩
    | none =>
      have hrun := hinv.run r hc
      cases hi : r.prog[r.mpc]? with
      | none => exact ⟨_, step_of_end hc hr (le_antisymm hrun.inside (List.getElem?_eq_none_iff.mp hi))⟩
      | some i =>
        obtain ⟨hprim, hwell, _⟩ := hrun.op hinv.cfg hi
        rw [step_of_op hc hr hi]
        exact exec_primitive_next hc hprim hwell

/-! ### Termination (R159) -/

/-- The work left of a run that raised nothing and stands at micro-operation `i`. -/
theorem workLeft_of_op {s r i} (hc : s.cur = some r) (hr : r.raised = none) (hi : r.prog[r.mpc]? = some i) :
    workLeft s = 1 + (opWork s.cfg i + ((r.prog.drop (r.mpc + 1)).map (opWork s.cfg)).sum - r.sub - (if r.framed then 1 else 0)) := by
  simp only [workLeft, hc, hr, drop_cons hi, List.map_cons, List.sum_cons]

/-- Of a run that raised, only the abort. -/
theorem workLeft_of_raised {s r e} (hc : s.cur = some r) (hr : r.raised = some e) : workLeft s = 1 := by
  simp only [workLeft, hc, hr]

/-- Settles O58: a micro-operation's step writes, counts, raises or finishes, each of which leaves less work than before; an abort or
a completion leaves none. -/
theorem runningStepDecreasesWork : Obligations.RunningStepDecreasesWork := by
  unfold Obligations.RunningStepDecreasesWork
  intro s t hinv hne h
  rcases step_cases h with ⟨hc, _⟩ | ⟨hc, _, _, _, _⟩ | ⟨r, hc, hr, i, hi, hq, hexec⟩
    | ⟨r, hc, hr, i, hi, hq, _⟩ | ⟨r, hc, f, hf, rfl⟩ | ⟨r, hc, hr, hi, rfl⟩
  case idle | accept => exact absurd hc hne
  case held =>
    have hprim := ((hinv.run r hc).op hinv.cfg hi).1
    cases (isRequest_of_isPrimitive hprim).symm.trans hq
  case abort =>
    rw [workLeft_of_raised hc hf]
    exact Nat.one_pos
  case complete =>
    have hpos : 0 < workLeft s := by
      simp only [workLeft, hc, hr]
      omega
    exact hpos
  case act =>
    have hrun := hinv.run r hc
    have hprim := (hrun.op hinv.cfg hi).1
    have hwork := work_of_placeOk hprim (hi ▸ hrun.place hr)
    have hcfg := (exec_frame hexec).cfg
    rw [workLeft_of_op hc hr hi]
    cases exec_prim hc hprim hexec with
    | failed cur => rw [workLeft_of_raised cur rfl]; omega
    | timedOut w cur => rw [workLeft_of_raised cur rfl]; omega
    | driven un k cur =>
      rw [workLeft_of_op cur hr hi, hcfg]
      simp only [un, if_true, Bool.false_eq_true, if_false] at hwork ⊢
      omega
    | counted fr lt cur => rw [workLeft_of_op cur hr hi, hcfg]; simp only; omega
    | polled w lt cur => rw [workLeft_of_op cur hr hi, hcfg]; simp only; omega
    | finished cur =>
      simp only [workLeft, cur, hr, hcfg]
      omega

/-- A step that ends a request answers it (R67). -/
theorem step_response {s t r} (hc : s.cur = some r) (h : step s = .next t) (hn : t.cur = none) :
    ∃ res, t.rsp = some res ∧ t.trace.getLast? = some (.respond res) := by
  rcases step_cases h with ⟨_, rfl⟩ | ⟨hc', _, _, _, _⟩ | ⟨_, _, _, _, _, hq, hexec⟩
    | ⟨_, _, _, _, _, _, rfl⟩ | ⟨_, _, _, _, rfl⟩ | ⟨_, _, _, _, rfl⟩
  case idle | held => cases hc.symm.trans hn
  case accept => cases hc.symm.trans hc'
  case act =>
    have hcur := (exec_acted hq hexec).cur
    rw [hc, hn] at hcur
    cases hcur
  case abort | complete => exact ⟨_, rfl, List.getLast?_concat⟩

/-- Settles O59: induction on the work left, which no step increases and every step can be taken. -/
theorem everyRequestResponds : Obligations.EveryRequestResponds := by
  unfold Obligations.EveryRequestResponds
  intro s
  induction hk : workLeft s using Nat.strong_induction_on generalizing s with
  | _ k ih =>
    intro hinv hne
    obtain ⟨r, hc⟩ := Option.ne_none_iff_exists'.mp hne
    obtain ⟨u, hu⟩ := invariantStateNeverStops s hinv
    have hless := runningStepDecreasesWork s u hinv hne hu
    by_cases hn : u.cur = none
    · obtain ⟨res, hrsp, hlast⟩ := step_response hc hu hn
      exact ⟨1, u, res, by omega, runSteps_next hu, hn, hrsp, hlast⟩
    · obtain ⟨n, t, res, hle, hrun, hrest⟩ := ih (workLeft u) (hk ▸ hless) u rfl (stepKeepsLifecycle s u hinv hu) hn
      exact ⟨n + 1, t, res, by omega, (runSteps_next hu).trans hrun, hrest⟩

end Sys2Proof.Machine
end

section
/-! PROOFS. Whole runs: a payload written to its end, a WAIT that never ends, a panel command row, a healthy request and INIT on a
stuck panel. On a healthy panel a list of micro-operations takes one run of steps to one state, `afterOps`. -/

namespace Sys2Proof.Machine

/-! ### Draws that are listed (R20, log 4) -/

/-- A listed answer is drawn. -/
theorem nextAck_of_cons {s a as} (h : s.acks = a :: as) : nextAck s = a := by
  simp only [nextAck, h]

/-- A listed busy level is read. -/
theorem nextLevel_of_cons {s v vs} (h : s.polls = v :: vs) : nextLevel s = v := by
  simp only [nextLevel, h]

/-- The not-busy level is not the busy level (R12). -/
theorem notBusy_ne (c : Config) : notBusyLevel c ≠ c.busyActiveLevel := by
  unfold notBusyLevel
  generalize c.busyActiveLevel = b
  revert b
  decide

/-! ### Where a run stands -/

/-- A run that raised nothing stands at micro-operation `i`. -/
structure Standing (s : State) (r : Run) (i : Instr) : Prop where
  cur : s.cur = some r
  live : r.raised = none
  op : r.prog[r.mpc]? = some i

/-- Its next step executes that micro-operation (R74). -/
theorem Standing.step {s r i} (h : Standing s r i) : step s = exec i s := step_of_op h.cur h.live h.op

/-- The run at the start of the next `n`-th micro-operation. -/
def Run.advance (r : Run) (n : Nat) : Run := { r with mpc := r.mpc + n, sub := 0, framed := false }

/-- A run at the start of a micro-operation is there already. -/
theorem Run.advance_zero {r : Run} (hf : r.framed = false) (hs : r.sub = 0) : r.advance 0 = r := by
  cases r
  simp_all [Run.advance]

/-! ### A payload to its end (R76 to R78) -/

/-- With DC driven and `rest` still to write, each accepted byte is a step, and the last one finishes. -/
theorem runSteps_payloadBytes {i bs d more} (rest : List Byte) {s r} (h : Standing s r i) (hf : r.framed = true) (hd : s.dc = some d)
    (hb : payloadBytes s.fb i = some bs) (hin : streamInside s.cfg i = true) (hrest : bs.drop r.sub = rest) (hne : rest ≠ [])
    (ha : s.acks = List.replicate rest.length .ok ++ more) :
    runSteps rest.length s = .next { s with
      acks := more, drawn := s.drawn + rest.length, cur := some (r.advance 1),
      trace := s.trace ++ rest.map (fun b => .byte d b .ok) } := by
  induction rest generalizing s r with
  | nil => exact absurd rfl hne
  | cons b rest ih =>
    have hacks : s.acks = .ok :: (List.replicate rest.length .ok ++ more) := ha
    have hbyte : bs[r.sub]? = some b := by rw [← List.head?_drop, hrest, List.head?_cons]
    have hdrop : bs.drop (r.sub + 1) = rest := by rw [← List.tail_drop, hrest, List.tail_cons]
    have hlen : bs.length = r.sub + 1 + rest.length := by
      have hlt := (List.getElem?_eq_some_iff.mp hbyte).1
      rw [← hdrop, List.length_drop]
      omega
    have hstep := h.step.trans ((payloadByte i bs s r d b h.cur hf hd hb hin hbyte).1 (nextAck_of_cons hacks))
    rw [List.length_cons, runSteps_next hstep]
    by_cases hlast : rest = []
    · subst hlast
      rw [if_pos (by simpa using hlen.symm), hacks]
      rfl
    · have hnot : ¬ r.sub + 1 = bs.length := by
        have := List.length_pos_of_ne_nil hlast
        omega
      rw [if_neg hnot]
      refine Eq.trans (ih (r := { r with sub := r.sub + 1 }) ⟨rfl, h.live, h.op⟩ hf hd hb hin hdrop hlast (by rw [hacks]; rfl)) ?_
      simp [Run.advance, Nat.add_assoc, Nat.add_comm 1]

/-- Settles O40: the DC write, then the bytes. -/
theorem payloadRunWritesEveryByte : Obligations.PayloadRunWritesEveryByte := by
  unfold Obligations.PayloadRunWritesEveryByte
  intro i bs s r more hc hr hi hf hs hb hin hne ha
  have h : Standing s r i := ⟨hc, hr, hi⟩
  rw [Nat.add_comm, List.replicate_succ, List.cons_append] at ha
  have hdrive := h.step.trans ((payloadDrivesDc i bs s r hc hf hb hne).1 (nextAck_of_cons ha))
  rw [Nat.add_comm 1, runSteps_next hdrive]
  refine Eq.trans (runSteps_payloadBytes bs (r := { r with framed := true }) ⟨rfl, hr, hi⟩ rfl rfl hb hin
    (by rw [hs, List.drop_zero]) hne (by rw [ha]; rfl)) ?_
  simp [Run.advance, Nat.add_assoc, Nat.add_comm 1]

/-! ### A WAIT that never ends (R82) -/

/-- Busy polls up to the bound: each is a step, and the last one raises Timeout. -/
theorem runSteps_busyPolls {more} (n : Nat) {s r} (h : Standing s r .wait) (hn : r.sub + (n + 1) = s.cfg.waitBound)
    (hv : s.polls = List.replicate (n + 1) s.cfg.busyActiveLevel ++ more) :
    runSteps (n + 1) s = .next { s with
      dev := devAfterWait s.dev, polls := more, drawn := s.drawn + (n + 1),
      cur := some { r with sub := s.cfg.waitBound, raised := some .timeout },
      trace := s.trace ++ List.replicate (n + 1) (.poll s.cfg.busyActiveLevel) } := by
  rw [List.replicate_succ, List.cons_append] at hv
  induction n generalizing s r with
  | zero =>
    rw [runSteps_next (h.step.trans (exec_wait_of_bound h.cur (nextLevel_of_cons hv) hn)), hv, hn]
    rfl
  | succ n ih =>
    have hbusy := exec_wait_of_busy h.cur (nextLevel_of_cons hv) (by omega)
    rw [runSteps_next (h.step.trans hbusy)]
    refine Eq.trans (ih (r := { r with sub := r.sub + 1 }) ⟨rfl, h.live, h.op⟩ (by simpa [Nat.add_assoc, Nat.add_comm 1] using hn)
      (by rw [hv]; rfl)) ?_
    simp [List.replicate_succ, Nat.add_assoc, Nat.add_comm 1]

/-- Settles O43: WAIT_BOUND polls, then the abort. -/
theorem stuckBusyTimesOut : Obligations.StuckBusyTimesOut := by
  unfold Obligations.StuckBusyTimesOut
  intro s r more hc hr hi hs hbound hv
  obtain ⟨n, hn⟩ := Nat.exists_eq_add_of_le' hbound
  rw [hn] at hv
  have hpolls := runSteps_busyPolls n ⟨hc, hr, hi⟩ (by omega) hv
  rw [hn, runSteps_add hpolls, runSteps_next (step_of_raised rfl rfl), runSteps_zero]
  rfl

/-! ### A list of micro-operations on a healthy panel -/

/-- One event's effect on whether a line's pin floats: its last write was answered fail (R28, log 10). -/
def floatStep (l : Line) (floats : Bool) : Event → Bool
  | .line l' _ a => if l' = l then a == .fail else floats
  | _ => floats

/-- The state a healthy panel lets a list of micro-operations lead to: `dev` as they finish, the lines as their events drive them,
their answers and polls drawn, their events in the trace, and the run after them. -/
def afterOps (ops : List Instr) (s : State) : State := { s with
  dev := devAfterOps s.dev ops
  rst := (healthyEvents s.cfg s.fb ops).foldl (levelStep .rst) s.rst
  dc := (healthyEvents s.cfg s.fb ops).foldl (levelStep .dc) s.dc
  rstFloats := (healthyEvents s.cfg s.fb ops).foldl (floatStep .rst) s.rstFloats
  dcFloats := (healthyEvents s.cfg s.fb ops).foldl (floatStep .dc) s.dcFloats
  acks := s.acks.drop (totalAcks ops)
  polls := s.polls.drop (totalPolls ops)
  drawn := s.drawn + (totalAcks ops + totalPolls ops)
  cur := s.cur.map (·.advance ops.length)
  trace := s.trace ++ healthyEvents s.cfg s.fb ops }

/-- Of one more micro-operation in front. -/
theorem afterOps_cons (i : Instr) (ops : List Instr) (s : State) : afterOps (i :: ops) s = afterOps ops (afterOps [i] s) := by
  have hdrawn : s.drawn + (totalAcks (i :: ops) + totalPolls (i :: ops))
      = s.drawn + (totalAcks [i] + totalPolls [i]) + (totalAcks ops + totalPolls ops) := by
    simp only [totalAcks, totalPolls, List.map_cons, List.map_nil, List.sum_cons, List.sum_nil]
    omega
  have hrun : s.cur.map (·.advance (i :: ops).length) = (s.cur.map (·.advance 1)).map (·.advance ops.length) := by
    cases s.cur <;> simp [Run.advance, Nat.add_assoc, Nat.add_comm 1]
  unfold afterOps
  rw [hdrawn, hrun]
  simp [devAfterOps_cons, devAfterOps_nil, healthyEvents, List.foldl_append, totalAcks, totalPolls, List.drop_drop]

/-- The bytes of a payload drive no line. -/
theorem foldl_levelStep_bytes (l d acc) (bs : List Byte) : (bs.map (fun b => Event.byte d b .ok)).foldl (levelStep l) acc = acc := by
  induction bs with
  | nil => rfl
  | cons b bs ih => exact ih

/-- Nor do they make its pin float. -/
theorem foldl_floatStep_bytes (l d acc) (bs : List Byte) : (bs.map (fun b => Event.byte d b .ok)).foldl (floatStep l) acc = acc := by
  induction bs with
  | nil => rfl
  | cons b bs ih => exact ih

/-- DATA, FILL and STREAM are their bytes: the events, the writes, the steps, and no lifecycle move (R76 to R78). -/
theorem payload_facts {c fb i bs} (hb : payloadBytes fb i = some bs) :
    opEvents c fb i = .line .dc (dcDataLevel c) .ok :: bs.map (fun b => .byte (dcDataLevel c) b .ok)
      ∧ opAcks i = 1 + bs.length ∧ opPolls i = 0 ∧ opSteps i = 1 + bs.length ∧ ∀ d, devAfterOp d i = d := by
  cases i <;> cases hb
  case data => exact ⟨rfl, rfl, rfl, rfl, fun _ => rfl⟩
  case fill v n => simp [opEvents_fill, opAcks, opPolls, opSteps, devAfterOp]
  case stream n => simp [opEvents_stream, opAcks, opPolls, opSteps, devAfterOp]

/-- Of one micro-operation. -/
theorem afterOps_singleton {i s r} (hc : s.cur = some r) : afterOps [i] s = { s with
    dev := devAfterOp s.dev i
    rst := (opEvents s.cfg s.fb i).foldl (levelStep .rst) s.rst
    dc := (opEvents s.cfg s.fb i).foldl (levelStep .dc) s.dc
    rstFloats := (opEvents s.cfg s.fb i).foldl (floatStep .rst) s.rstFloats
    dcFloats := (opEvents s.cfg s.fb i).foldl (floatStep .dc) s.dcFloats
    acks := s.acks.drop (opAcks i)
    polls := s.polls.drop (opPolls i)
    drawn := s.drawn + (opAcks i + opPolls i)
    cur := some (r.advance 1)
    trace := s.trace ++ opEvents s.cfg s.fb i } := by
  simp [afterOps, healthyEvents, totalAcks, totalPolls, hc, devAfterOps_cons, devAfterOps_nil]

/-- What a micro-operation needs of a healthy panel to run to its end: payload bytes to write, inside the framebuffer. -/
structure Sendable (s : State) (i : Instr) : Prop where
  primitive : i.isPrimitive = true
  nonempty : ∀ bs, payloadBytes s.fb i = some bs → bs ≠ []
  inside : streamInside s.cfg i = true

/-- A micro-operation runs to its end on a panel that accepts its writes and reads not busy. -/
theorem runSteps_op {s r i moreA moreP} (h : Standing s r i) (hf : r.framed = false) (hs : r.sub = 0) (hi : Sendable s i)
    (ha : s.acks = List.replicate (opAcks i) .ok ++ moreA) (hv : s.polls = List.replicate (opPolls i) (notBusyLevel s.cfg) ++ moreP) :
    runSteps (opSteps i) s = .next (afterOps [i] s) := by
  obtain ⟨hp, hne, hin⟩ := hi
  rw [afterOps_singleton h.cur]
  cases hbytes : payloadBytes s.fb i with
  | some bs =>
    obtain ⟨hevents, hacks, hpolls, hsteps, hdev⟩ := payload_facts (c := s.cfg) hbytes
    rw [hacks] at ha
    rw [hsteps, hevents, hacks, hpolls, hdev, List.foldl_cons, List.foldl_cons, List.foldl_cons, List.foldl_cons,
      foldl_levelStep_bytes, foldl_levelStep_bytes, foldl_floatStep_bytes, foldl_floatStep_bytes,
      payloadRunWritesEveryByte i bs s r moreA h.cur h.live h.op hf hs hbytes hin (hne bs hbytes) ha, ha,
      List.drop_left' List.length_replicate]
    rfl
  | none =>
    cases i <;> simp only [Instr.isPrimitive, Bool.false_eq_true, payloadBytes, reduceCtorEq] at hp hbytes
    case cmd k =>
      rw [opSteps, runSteps_next (h.step.trans (exec_cmd_undriven_of_ok h.cur hf (nextAck_of_cons ha)))]
      refine Eq.trans (runSteps_next ((Standing.step (r := { r with framed := true }) ⟨rfl, h.live, h.op⟩).trans
        (exec_cmd_byte_of_ok rfl rfl rfl (nextAck_of_cons (by rw [ha]; rfl))))) ?_
      rw [ha, List.append_assoc]
      rfl
    case line l v =>
      rw [opSteps, runSteps_next (h.step.trans (exec_line_of_ok h.cur (nextAck_of_cons ha))), ha]
      cases l <;> rfl
    case delay k => exact runSteps_next (h.step.trans (delayEmitsItsEvent k s r h.cur))
    case setdev d =>
      have hevents : opEvents s.cfg s.fb (.setdev d) = [] := rfl
      rw [hevents, List.append_nil]
      exact runSteps_next (h.step.trans (exec_setdev h.cur))
    case wait =>
      have hlevel := nextLevel_of_cons hv
      rw [opSteps, runSteps_next (h.step.trans (exec_wait_of_notBusy h.cur (hlevel ▸ notBusy_ne s.cfg))), hlevel, hv]
      rfl

/-- A list of micro-operations that the program goes on with runs to its end, one after the other. -/
theorem runSteps_ops {moreA moreP tail} (ops : List Instr) {s r} (hc : s.cur = some r) (hr : r.raised = none)
    (hf : r.framed = false) (hs : r.sub = 0) (hprog : r.prog.drop r.mpc = ops ++ tail) (hops : ∀ i ∈ ops, Sendable s i)
    (ha : s.acks = List.replicate (totalAcks ops) .ok ++ moreA)
    (hv : s.polls = List.replicate (totalPolls ops) (notBusyLevel s.cfg) ++ moreP) :
    runSteps (totalSteps ops) s = .next (afterOps ops s) := by
  induction ops generalizing s r with
  | nil =>
    have hrun : s.cur.map (·.advance 0) = s.cur := by rw [hc, Option.map_some, Run.advance_zero hf hs]
    rw [afterOps, healthyEvents, List.flatMap_nil, List.append_nil, List.length_nil, hrun]
    rfl
  | cons i ops ih =>
    have hacks : s.acks = List.replicate (opAcks i) .ok ++ (List.replicate (totalAcks ops) .ok ++ moreA) := by
      rw [ha, ← List.append_assoc, List.replicate_append_replicate]
      rfl
    have hpolls : s.polls = List.replicate (opPolls i) (notBusyLevel s.cfg)
        ++ (List.replicate (totalPolls ops) (notBusyLevel s.cfg) ++ moreP) := by
      rw [hv, ← List.append_assoc, List.replicate_append_replicate]
      rfl
    have hstanding : Standing s r i := ⟨hc, hr, by rw [← List.head?_drop, hprog]; rfl⟩
    have hfirst := runSteps_op hstanding hf hs (hops i List.mem_cons_self) hacks hpolls
    have hsteps : totalSteps (i :: ops) = opSteps i + totalSteps ops := rfl
    rw [hsteps, runSteps_add hfirst, afterOps_cons i ops]
    have hafter := afterOps_singleton (i := i) hc
    refine ih (s := afterOps [i] s) (r := r.advance 1) (by rw [hafter]) hr rfl rfl ?_ ?_ ?_ ?_
    · show r.prog.drop (r.mpc + 1) = _
      rw [← List.tail_drop, hprog]
      rfl
    · intro j hj
      obtain ⟨hprim, hne, hin⟩ := hops j (List.mem_cons_of_mem i hj)
      exact ⟨hprim, hne, hin⟩
    · rw [hafter, hacks, List.drop_left' List.length_replicate]
    · rw [hafter, hpolls, List.drop_left' List.length_replicate]

/-- The micro-operations of an expansion are such. -/
theorem sendable_of_mem_expand {s : State} {i j : Instr} (hw : s.cfg.wf = true) (hj : j ∈ expand s.cfg i) : Sendable s j := by
  obtain ⟨hprim, hwell⟩ := expansionsAreWellFormed s.cfg i j hw hj
  refine ⟨hprim, fun bs hbytes => ?_, ?_⟩
  · rintro rfl
    cases j <;> simp only [payloadBytes, Option.some.injEq, reduceCtorEq] at hbytes
    case data bs =>
      subst hbytes
      cases hwell
    case fill v n =>
      have hn : 1 ≤ n := of_decide_eq_true hwell
      simp at hbytes
      omega
    case stream n =>
      have hn : n = s.cfg.fbLen := eq_of_beq hwell
      have := fbLen_pos hw
      simp at hbytes
      omega
  · cases j
    case stream n =>
      have hn : n = s.cfg.fbLen := eq_of_beq hwell
      exact decide_eq_true hn.le
    all_goals rfl

/-! ### Requests (R85 to R97, R100) -/

/-- A legal request is well formed. -/
theorem wellFormed_of_isLegalRequest {c : Config} {i : Instr} (hl : i.isLegalRequest = true) : i.wellFormed c = true := by
  cases i
  case init | writeAndUpdateFull | writeAndUpdateFast | writeAndUpdatePartial | updateFull | updateFast | updatePartial | clear
    | sleep => rfl
  all_goals cases hl

/-- The state with the run of `i` started by its word, the rest of the host's words left (R69, R85). -/
def started (i : Instr) (rest : List Word) (s : State) : State := { s with
  reqs := rest
  trace := s.trace ++ [.accept (encodeRequest i)]
  cur := some ⟨i, expand s.cfg i, 0, 0, false, none⟩ }

/-- The word of a legal request that passes the pre-check starts its run, whose first micro-operations run to their end. -/
theorem runSteps_request {i : Instr} {s : State} {rest moreA moreP} {ops tail : List Instr} (hl : i.isLegalRequest = true)
    (hc : s.cur = none) (hw : s.reqs = encodeRequest i :: rest) (hpass : i = .init ∨ s.dev = .idle)
    (hprog : expand s.cfg i = ops ++ tail) (hops : ∀ j ∈ ops, Sendable s j)
    (ha : s.acks = List.replicate (totalAcks ops) .ok ++ moreA)
    (hv : s.polls = List.replicate (totalPolls ops) (notBusyLevel s.cfg) ++ moreP) :
    runSteps (totalSteps ops + 1) s = .next (afterOps ops (started i rest s)) := by
  have hstart : step s = .next (started i rest s) := by
    rw [step_of_word hc hw,
      decodeRequest_encodeRequest (c := s.cfg) (Instr.isRequest_of_isLegalRequest hl) (wellFormed_of_isLegalRequest hl)]
    exact exec_of_passes (s := { s with reqs := rest }) hl hc hpass
  have hsendable : ∀ j ∈ ops, Sendable (started i rest s) j := fun j hj =>
    ⟨(hops j hj).primitive, (hops j hj).nonempty, (hops j hj).inside⟩
  rw [runSteps_next hstart]
  exact runSteps_ops ops rfl rfl rfl rfl hprog hsendable ha hv

/-- Settles O57: acceptance, the whole expansion, and completion. -/
theorem healthyRequestRunsToOk : Obligations.HealthyRequestRunsToOk := by
  unfold Obligations.HealthyRequestRunsToOk
  intro i s rest moreA moreP hl hc hreqs hpass hw ha hv
  have hrun := runSteps_request hl hc hreqs hpass (List.append_nil _).symm (fun j hj => sendable_of_mem_expand hw hj) ha hv
  have hend : step (afterOps (expand s.cfg i) (started i rest s)) = .next (complete (afterOps (expand s.cfg i) (started i rest s))) :=
    step_of_end (r := Run.advance _ _) rfl rfl (Nat.zero_add _)
  refine ⟨complete (afterOps (expand s.cfg i) (started i rest s)), ?_, rfl, rfl, rfl, ?_, ?_, rfl, rfl, ?_, rfl⟩
  · rw [show totalSteps (expand s.cfg i) + 2 = totalSteps (expand s.cfg i) + 1 + 1 from rfl, runSteps_add hrun, runSteps_next hend,
      runSteps_zero]
  · exact (congrArg _ ha).trans (List.drop_left' List.length_replicate)
  · exact (congrArg _ hv).trans (List.drop_left' List.length_replicate)
  · exact expand_final s.cfg i s.dev hl (hpass.imp_right .inl)

/-- A micro-operation without payload needs nothing of the panel's framebuffer. -/
theorem sendable_of_no_payload {s i} (hp : i.isPrimitive = true) (hn : payloadBytes s.fb i = none) : Sendable s i where
  primitive := hp
  nonempty bs hb := by
    rw [hn] at hb
    cases hb
  inside := by
    cases i
    case stream => cases hn
    all_goals rfl

/-- HW_RESET's have none (R81). -/
theorem sendable_of_mem_hwResetOps {s j} (hj : j ∈ hwResetOps) : Sendable s j := by
  simp only [hwResetOps, List.mem_cons, List.not_mem_nil, or_false] at hj
  rcases hj with rfl | rfl | rfl | rfl | rfl | rfl <;> exact sendable_of_no_payload rfl rfl

/-- INIT up to its first WAIT: SETDEV and HW_RESET (R81, R86). -/
theorem expand_init_eq (c) : ∃ tail, expand c .init = (.setdev .uninitialized :: hwResetOps) ++ .wait :: tail :=
  ⟨_, by simp only [expand, initOps, List.append_assoc]; rfl⟩

/-- Settles O60: acceptance, SETDEV and HW_RESET on a panel that accepts the writes, then a WAIT that never ends. -/
theorem initOnStuckPanelTimesOut : Obligations.InitOnStuckPanelTimesOut := by
  unfold Obligations.InitOnStuckPanelTimesOut
  intro s rest moreA moreP hc hreqs ha hbound hv
  obtain ⟨tail, htail⟩ := expand_init_eq s.cfg
  have hsendable : ∀ j ∈ .setdev .uninitialized :: hwResetOps, Sendable s j :=
    List.forall_mem_cons.mpr ⟨sendable_of_no_payload rfl rfl, fun _ => sendable_of_mem_hwResetOps⟩
  have hreset := runSteps_request (i := .init) (moreP := s.polls) rfl hc hreqs (.inl rfl) htail hsendable ha rfl
  have hwait := stuckBusyTimesOut (afterOps (.setdev .uninitialized :: hwResetOps) (started .init rest s)) (Run.advance _ 7) moreP rfl rfl
    (by show (expand s.cfg .init)[7]? = _; rw [htail]; rfl) rfl hbound hv
  have hsplit : s.cfg.waitBound + 9 = totalSteps (.setdev .uninitialized :: hwResetOps) + 1 + (s.cfg.waitBound + 1) := by
    have hsteps : totalSteps (.setdev .uninitialized :: hwResetOps) = 7 := rfl
    omega
  rw [hsplit, runSteps_add hreset]
  refine hwait.trans ?_
  simp [afterOps, started, ha, healthyEvents, hwResetOps, opEvents, totalAcks, totalPolls, opAcks, opPolls, levelStep, floatStep,
    devAfterOps_cons, devAfterOps_nil, devAfterOp, encodeRequest, Nat.add_assoc, Nat.add_comm 3]

/-! ### HW_RESET and panel command rows (R81, R84, R101 to R120) -/

/-- The run with `ops` spliced into the place where it stands (R84). -/
def Run.spliced (r : Run) (ops : List Instr) : Run :=
  { r with prog := r.prog.take r.mpc ++ ops ++ r.prog.drop (r.mpc + 1), sub := 0, framed := false }

/-- It stands at the first of the spliced micro-operations. -/
theorem Run.drop_spliced {r : Run} (hlt : r.mpc < r.prog.length) (ops : List Instr) :
    (r.spliced ops).prog.drop r.mpc = ops ++ r.prog.drop (r.mpc + 1) := by
  rw [Run.spliced, List.append_assoc, List.drop_left' (List.length_take_of_le hlt.le)]

/-- Two states with the same next step have the same runs. -/
theorem runSteps_congr {s s' : State} (h : step s = step s') (n : Nat) : runSteps (n + 1) s = runSteps (n + 1) s' := by
  have hcore : core.step s = core.step s' := h
  simp only [runSteps, Host.Core.run]
  rw [hcore]

/-- A row whose step is that of its first spliced micro-operation runs as its micro-operations do (R81, R84). -/
theorem runSteps_spliced {s r i j ops moreA} (h : Standing s r i) (hexec : exec i s = exec j (splice (j :: ops) s))
    (hsteps : 0 < opSteps j) (hops : ∀ j' ∈ j :: ops, Sendable s j')
    (ha : s.acks = List.replicate (totalAcks (j :: ops)) .ok ++ moreA) (hv : totalPolls (j :: ops) = 0) :
    runSteps (totalSteps (j :: ops)) s = .next (afterOps (j :: ops) { s with cur := some (r.spliced (j :: ops)) }) := by
  have hdrop := Run.drop_spliced (List.getElem?_eq_some_iff.mp h.op).1 (j :: ops)
  have hstanding : Standing { s with cur := some (r.spliced (j :: ops)) } (r.spliced (j :: ops)) j :=
    ⟨rfl, h.live, by rw [← List.head?_drop]; exact congrArg List.head? hdrop⟩
  have hstep : step s = step { s with cur := some (r.spliced (j :: ops)) } := by
    have hfirst := hexec
    rw [splice_of_running h.cur] at hfirst
    exact (h.step.trans hfirst).trans hstanding.step.symm
  obtain ⟨n, hn⟩ : ∃ n, totalSteps (j :: ops) = n + 1 := by
    refine Nat.exists_eq_add_of_le' (Nat.lt_of_lt_of_le hsteps ?_)
    exact Nat.le_add_right _ _
  have hsendable : ∀ j' ∈ j :: ops, Sendable { s with cur := some (r.spliced (j :: ops)) } j' := fun j' hj =>
    ⟨(hops j' hj).primitive, (hops j' hj).nonempty, (hops j' hj).inside⟩
  rw [hn, runSteps_congr hstep, ← hn]
  exact runSteps_ops _ (moreP := s.polls) rfl h.live rfl rfl hdrop hsendable ha (by rw [hv]; rfl)

/-- Settles O45: the first line write from the spliced program, and the six micro-operations to their end. -/
theorem hwResetDrivesResetLine : Obligations.HwResetDrivesResetLine := by
  unfold Obligations.HwResetDrivesResetLine
  intro s r more hc ha
  have hexec : exec .hwReset s = exec (.line .rst 1#1) (splice hwResetOps s) := rfl
  refine ⟨?_, fun hr hi => ?_⟩
  · rw [hexec, splice_of_running hc]
    refine Eq.trans (exec_line_of_ok (r := r.spliced hwResetOps) rfl ?_) ?_
    · exact nextAck_of_cons ha
    · rw [ha]
      rfl
  · have hrun := runSteps_spliced ⟨hc, hr, hi⟩ hexec Nat.one_pos (fun _ => sendable_of_mem_hwResetOps) ha rfl
    refine hrun.trans ?_
    simp [afterOps, ha, healthyEvents, opEvents, totalAcks, totalPolls, opAcks, opPolls, levelStep, floatStep, devAfterOps_cons,
      devAfterOps_nil, devAfterOp, Run.advance, Run.spliced]

/-- A row's CMD is followed by nothing for an empty payload, else by one payload micro-operation with the row's bytes; the two RAM
writes always have bytes (R97, R117, R118). -/
theorem rowTail_cases {c : Config} {fb req i k bs} (hn : commandName i = some k) (hw : c.wf = true) (hb : rowPayload c fb req i = bs) :
    (bs = [] → rowTail c fb req i = [])
      ∧ (bs ≠ [] → ∃ j, rowTail c fb req i = [j] ∧ j.isPrimitive = true ∧ payloadBytes fb j = some bs
        ∧ streamInside c j = true) := by
  subst hb
  have hfb : c.fbLen ≠ 0 := Nat.one_le_iff_ne_zero.mp (fbLen_pos hw)
  have hsend (h : rowTail c fb req i = if rowPayload c fb req i = [] then [] else [.data (rowPayload c fb req i)]) :
      (rowPayload c fb req i = [] → rowTail c fb req i = []) ∧ (rowPayload c fb req i ≠ [] → ∃ j, rowTail c fb req i = [j]
        ∧ j.isPrimitive = true ∧ payloadBytes fb j = some (rowPayload c fb req i) ∧ streamInside c j = true) :=
    ⟨fun he => h.trans (if_pos he), fun hne => ⟨_, h.trans (if_neg hne), rfl, rfl, rfl⟩⟩
  cases i <;> cases hn
  case writeBwData =>
    cases req
    case clear v => exact ⟨fun he => by simp [rowPayload, hfb] at he, fun _ => ⟨_, rfl, rfl, rfl, rfl⟩⟩
    all_goals exact ⟨fun he => by simp [rowPayload, hfb] at he, fun _ => ⟨_, rfl, rfl, rfl, decide_eq_true le_rfl⟩⟩
  case writeRedData => exact ⟨fun he => by simp [rowPayload, hfb] at he, fun _ => ⟨_, rfl, rfl, rfl, rfl⟩⟩
  all_goals exact hsend rfl

/-- Settles O48: the row's CMD, and its payload micro-operation where it has one. -/
theorem panelCommandTransaction : Obligations.PanelCommandTransaction := by
  unfold Obligations.PanelCommandTransaction
  intro i k bs s r more hn hc hr hi hw hb
  obtain ⟨hnone, hsome⟩ := rowTail_cases hn hw hb
  have hexec := exec_commandRow hn hc
  have hcmd : Sendable s (.cmd k) := sendable_of_no_payload rfl rfl
  refine ⟨fun he ha => ?_, fun hne ha => ?_⟩
  · rw [hnone he] at hexec
    have hrun := runSteps_spliced ⟨hc, hr, hi⟩ hexec Nat.two_pos (by simpa using hcmd) ha rfl
    refine hrun.trans ?_
    simp [afterOps, ha, healthyEvents, opEvents, totalAcks, totalPolls, opAcks, opPolls, levelStep, floatStep, devAfterOps_cons,
      devAfterOps_nil, devAfterOp, devAfterCommand, Run.advance, Run.spliced]
  · obtain ⟨j, htail, hprim, hbytes, hin⟩ := hsome hne
    obtain ⟨hevents, hacks, hpolls, hsteps, hdev⟩ := payload_facts (c := s.cfg) hbytes
    have htotalSteps : totalSteps [.cmd k, j] = 2 + (opSteps j + 0) := rfl
    have htotalAcks : totalAcks [.cmd k, j] = 2 + (opAcks j + 0) := rfl
    have htotalPolls : totalPolls [.cmd k, j] = opPolls j := Nat.zero_add _
    rw [hsteps, Nat.add_zero, ← Nat.add_assoc] at htotalSteps
    rw [hacks, Nat.add_zero, ← Nat.add_assoc] at htotalAcks
    rw [hpolls] at htotalPolls
    have hj : Sendable s j := ⟨hprim, fun _ hbytes' => by cases hbytes.symm.trans hbytes'; exact hne, hin⟩
    rw [htail] at hexec ⊢
    have hrun := runSteps_spliced ⟨hc, hr, hi⟩ hexec Nat.two_pos (by simpa using ⟨hcmd, hj⟩) (by rw [htotalAcks, ha]) htotalPolls
    rw [htotalSteps] at hrun
    refine hrun.trans ?_
    have hcmdEvents : opEvents s.cfg s.fb (.cmd k)
        = [.line .dc s.cfg.dcCmdLevel .ok, .byte s.cfg.dcCmdLevel (opcodeOf s.cfg.op k) .ok] := rfl
    have hcmdDev : devAfterOp s.dev (.cmd k) = devAfterCommand k s.dev := rfl
    simp [afterOps, ha, healthyEvents, hcmdEvents, hevents, htotalAcks, htotalPolls, levelStep, floatStep, devAfterOps_cons,
      devAfterOps_nil, hcmdDev, devAfterCommand, hdev, Run.advance, Run.spliced, foldl_levelStep_bytes, foldl_floatStep_bytes,
      dcDataLevel]

end Sys2Proof.Machine
end
